-- ==== Sys2Proof/Word.lean ====
section
/-!
DEFINITION. The word types of the Hafulo 316: what the spec treats as bits.
Prices, lots, ages and counts are plain numbers; only what wraps, or travels as bits, is a bit vector.
-/
namespace Sys2Proof

/-- A byte of the floor line (R176). -/
abbrev Byte := BitVec 8

/-- The ten bit levels of a byte on the floor line in the order they are sent, the start bit in bit 0:
0 is dominant and 1 recessive (R176). -/
abbrev LineLevels := BitVec 10

/-- A step count, entry column or character index: 24 bits, wrapping (conventions of 00, R95). -/
abbrev Col := BitVec 24

/-- The tick count: 16 bits, wrapping (00 Timebase, R200). -/
abbrev TickCount := BitVec 16

/-- A character code of the 64-code set of R210. -/
abbrev Glyph := BitVec 6

end Sys2Proof
end

