-- ==== Sys2Proof/Syntax.lean ====
section
/-!
DEFINITION. The commands of the Hafulo 316: one constructor of `Instr` for each row of
spec/opcode_table.json, in the table's order, with the operands its rule needs.
-/
namespace Sys2Proof

/-- The 25 strap pins as read, one field a strap (R198). -/
structure StrapPins where
  station   : BitVec 6
  rate      : BitVec 2
  ribbon    : BitVec 3
  segment   : BitVec 3
  tail      : BitVec 1
  width     : BitVec 2
  terminals : BitVec 3
  board     : BitVec 1
  budget    : BitVec 4
deriving DecidableEq, Repr

/-- A received frame as a receive slot holds it: DEST, ORIGIN and the unescaped body bytes; its LEN
is the body's length (R178, R181). -/
structure Frame where
  dest   : Byte
  origin : Byte
  body   : List Byte
deriving DecidableEq, Repr

/-- The commands. A message command (`print` to `tally`) carries the frame the frame handler takes;
its class is the constructor's. A key command carries the terminal at which the key is pressed. A byte
command carries the ten levels the receiver samples (R176): the start bit, in bit 0, with the data bits in
the order they are read, and the stop bit; 0 is dominant. -/
inductive Instr where
  | resetAssert
  | powerOnReset (pins : StrapPins)
  | floorTick
  | patternEnd (cell : Fin 16)
  | refreshFrame (raw0 raw1 raw2 raw3 : BitVec 48)
  | debounceChange (t : Fin 4) (pos : Fin 48)
  | letterKey (t : Fin 4) (letter : Fin 26)
  | digitKey (t : Fin 4) (digit : Fin 10)
  | quoteKey (t : Fin 4)
  | clearKey (t : Fin 4)
  | rubKey (t : Fin 4)
  | watchKey (t : Fin 4)
  | unwatchKey (t : Fin 4)
  | nextKey (t : Fin 4)
  | limitKey (t : Fin 4)
  | fractionKey (t : Fin 4)
  | beeperExpiry (t : Fin 4)
  | messageExpiry (t : Fin 4)
  | warmUpPhase
  | lineSilenceTimeout
  | crawlStep
  | pendingPaceQueued
  | print (f : Frame)
  | quote (f : Frame)
  | status (f : Frame)
  | cancel (f : Frame)
  | plan (f : Frame)
  | dayStart (f : Frame)
  | ask (f : Frame)
  | answer (f : Frame)
  | answerSnoop (f : Frame)
  | handoff (f : Frame)
  | pace (f : Frame)
  | tallyQuery (f : Frame)
  | tally (f : Frame)
  | printTake
  | cancelTake
  | statusTake
  | idleTimerExpiry
  | idleDecay
  | silenceCoasting
  | silenceWaiting
  | askTimeout (t : Fin 4)
  | byteReceived (bits : BitVec 9) (stop : BitVec 1)
  | lineQuiet
  | attemptStart
  | arbitrationLoss
  | holdByte
  | holdOut
  | frameAbandoned
  | attemptComplete
  | frameComplete
  | dispatchEnd
deriving DecidableEq, Repr

end Sys2Proof
end

