-- ==== Sys2Proof/Decode.lean ====
section
/-!
DEFINITION. The command a word spells by the table's bits. No row of spec/opcode_table.json gives
bits ("fields" is empty in all 53 rows and none has "fixed"), so no word spells a command.
The bytes of the floor line are decoded by the assembler (Machine/Wire.lean and Machine/Line.lean).
-/
namespace Sys2Proof

/-- None of the table's rows gives bits, so every word spells none of them. -/
def decodeTableWord (_nbits _w : Nat) : Option Instr :=
  none

end Sys2Proof
end

