-- ==== Sys2Proof/Config.lean ====
section
/-!
DEFINITION. The fixed sizes the spec gives the part, and the values it leaves open.
An `opaque` constant below has no body: a statement proved about the model holds whatever its value is.
-/
namespace Sys2Proof.Config

/-- R20: the quote table holds at most 64 records. -/
def tableSize : Nat := 64
/-- R64: the print queue holds at most 64 items. -/
def printQueueSize : Nat := 64
/-- R81: the recent-tape list holds at most 16 entries. -/
def recentSize : Nat := 16
/-- R99: a tape hold holds at most 48 characters. -/
def holdSize : Nat := 48
/-- R184: the tape queue holds at most 8 frames. -/
def tapeQueueSize : Nat := 8
/-- R184: the general queue holds at most 4 frames. -/
def generalQueueSize : Nat := 4
/-- R191: there are two receive slots. -/
def slotCount : Nat := 2
/-- R139: a key queue holds at most 4 keys. -/
def keyQueueSize : Nat := 4
/-- R168: a watch list holds at most 6 entries. -/
def watchSize : Nat := 6
/-- R173: an alert list holds at most 4 alerts. -/
def alertSize : Nat := 4
/-- R187: a sender gives up after 24 held hold bytes in a row. -/
def holdLimit : Nat := 24
/-- R188: the 16th failed attempt abandons a frame. -/
def attemptLimit : Nat := 16
/-- R202: a tally stays at 65,535. -/
def tallyMax : Nat := 65535
/-- R1: the largest price, 4095⅞. -/
def priceMax : Nat := 32767

/-- FREE VALUE (log entry 5, DESIGN CHOICE). The 35 dots of a glyph, glyph column 0 in the low seven
bits. R122 and R210 fix how many are lit and not which; `Sys2Proof.Machine.glyphDots` holds the
pattern to that count. -/
opaque fontBits : Nat → BitVec 35

/-- FREE VALUE (log entry 6, DESIGN CHOICE). The 16-bit offset field a segment puts in its Handoff
when O + w exceeds 65,535 (R106 gives the sum, R209 the field's two bytes). -/
opaque handoffOffsetOverflow : Nat → BitVec 16

end Sys2Proof.Config
end

