-- ==== Sys2Proof/Machine/State.lean ====
section
/-!
DEFINITION. The state of one 316: every register, queue, counter, mode and pin the spec names, block
by block, as plain data, and the state after power-on reset.
-/
namespace Sys2Proof.Machine

/-! ### Coded values -/

/-- The five tick values of R6. -/
inductive Tick where
  | noTick | plus | zeroPlus | minus | zeroMinus
deriving DecidableEq, Repr

/-- The trading states of R5 and section 2.1: OPEN, HALTED, DELAYED, CLOSED. -/
inductive TradingState where
  | opened | halted | delayed | closed
deriving DecidableEq, Repr

/-- The kinds of a Print (R5). -/
inductive PrintKind where
  | regular | opening | late
deriving DecidableEq, Repr

/-- The stencils of R54; `steady` is pattern NONE. -/
inductive Pattern where
  | steady | rise | fall | halt | delay
deriving DecidableEq, Repr

/-- The segment states of R90. -/
inductive SegmentState where
  | dark | waiting | running | coasting
deriving DecidableEq, Repr

/-- The attribute of a tape character (R77, R82). -/
inductive Attr where
  | normal | notice
deriving DecidableEq, Repr

/-- The terminal states of section 7.4. -/
inductive TermState where
  | idle | keying | asking | showing | limitEntry
deriving DecidableEq, Repr

/-- The transient messages of R142. -/
inductive Message where
  | noQuote | lineBusy
deriving DecidableEq, Repr

/-- The direction of a limit (R171). -/
inductive Direction where
  | above | below
deriving DecidableEq, Repr

/-- The 44 keys of a terminal (section 7.2). -/
inductive Key where
  | letter (l : Fin 26)
  | digit (d : Fin 10)
  | quote | clear | rub | watch | unwatch | next | limit | fraction
deriving DecidableEq, Repr

/-- The assembler states of section 9.1's table. -/
inductive AsmState where
  | waitingForQuiet | seeking | assembling | skipping
deriving DecidableEq, Repr

/-- The assigned message classes, 1 to 12 (R207). -/
inductive MsgClass where
  | print | quote | status | cancel | plan | dayStart
  | ask | answer | handoff | pace | tallyQuery | tally
deriving DecidableEq, Repr

/-- The two transmit queues (R184). -/
inductive QueueId where
  | tape | general
deriving DecidableEq, Repr

/-- The twelve tallies in report order (R202). -/
inductive Tally where
  | goodFrames | classCorrections | framesDiscarded | arbitrationLosses | holdsAsserted
  | framesAbandoned | tapeRefused | charsDropped | lateChars | paceJumps | asksTimedOut
  | keysAlertsDropped
deriving DecidableEq, Repr

/-! ### Values shared by the blocks -/

/-- A symbol: four character places, first place first (R4, R206). -/
structure Symbol where
  p0 : Glyph
  p1 : Glyph
  p2 : Glyph
  p3 : Glyph
deriving DecidableEq, Repr

/-- What names a print: its origin station and the serial that station gave it (R33). -/
structure PrintId where
  origin : Byte
  serial : BitVec 16
deriving DecidableEq, Repr

/-- A last or prior group: price, lots and tick, present or absent together (R17). -/
structure LastGroup where
  price : Nat
  lots  : Nat
  tick  : Tick
deriving DecidableEq, Repr

/-- The straps as every block sees them, substitutions made (R198). `station` is none at a
listen-only station. -/
structure Straps where
  station   : Option Nat
  bitTime   : Nat
  ribbon    : Option (Fin 4)
  segment   : Nat
  tail      : Bool
  width     : Nat
  terminals : Nat
  board     : Bool
  budget    : Nat
deriving DecidableEq, Repr

/-! ### The quote table and the board cells -/

/-- A quote record (section 2.1). Its recency position is its place in `State.table`. `pins` lists
board cell numbers in rising order, each at most once. -/
structure QuoteRecord where
  symbol    : Symbol
  reference : Option Nat
  last      : Option LastGroup
  setter    : Option PrintId
  prior     : Option LastGroup
  bid       : Option Nat
  ask       : Option Nat
  state     : TradingState
  suspect   : Bool
  age       : Nat
  pins      : List (Fin 16)
  refs      : Nat
deriving DecidableEq, Repr

/-- A board cell (section 3.1). -/
structure CellRecord where
  number   : Fin 16
  link     : Option Symbol
  pattern  : Pattern
  position : Nat
  repeats  : Bool
deriving DecidableEq, Repr

/-! ### The tape composer -/

/-- An item of the print queue (chapter 4's second table). -/
inductive TapeItem where
  | print (symbol : Symbol) (price lots : Nat) (kind : PrintKind) (id : PrintId) (arrival : TickCount)
  | cancel (symbol : Symbol) (price lots : Nat)
  | status (symbol : Symbol) (state : TradingState)
deriving DecidableEq, Repr

/-- The composer's state (chapter 4's first table). -/
structure Composer where
  printQueue : List TapeItem
  recent     : List (Symbol × Nat)
  level      : Nat
  idleTimer  : Option Nat
  overflow   : Bool
  nextIndex  : Col
  nextEntry  : Option Col
deriving DecidableEq, Repr

/-! ### The crawl unit -/

/-- A character of the tape hold (chapter 5's second table). -/
structure TapeChar where
  index : Col
  entry : Col
  glyph : Glyph
  attr  : Attr
  sent  : Bool
deriving DecidableEq, Repr

/-- The crawl unit's state (chapter 5's first table). -/
structure Crawl where
  segState    : SegmentState
  stepCount   : Col
  paceLevel   : Nat
  counter     : Nat
  period      : Nat
  staged      : Option Nat
  slew        : Int
  phase       : Nat
  offset      : Option (BitVec 16)
  paceHeard   : Bool
  silence     : Option Nat
  hold        : List TapeChar
  pendingPace : Bool
deriving DecidableEq, Repr

/-! ### The lamp driver -/

/-- The levels of a cell's 58 lamps, group by group (R47), 0 for a dark lamp. `price`: hundreds, tens
and units segments (R11's order), then the legend; `tick`: UP, DOWN; `change`: +, −, UNCH, tens and
units segments, legend; `status`: HALT, DELAY, CORR, OVER. -/
structure CellLamps where
  price  : List Nat
  tick   : List Nat
  change : List Nat
  status : List Nat
deriving DecidableEq, Repr

/-- A lit-or-blank dot column of the latched window: the character and the glyph column 0 to 5 it
shows (R97, R119). -/
structure WindowColumn where
  index  : Col
  glyph  : Glyph
  attr   : Attr
  column : Nat
deriving DecidableEq, Repr

/-- A ribbon dot column as driven: which of its seven dots are lit, and their one final level. -/
structure DotColumn where
  dots  : List Bool
  level : Nat
deriving DecidableEq, Repr

/-- The frame result of R117: the amounts of R120 to R125 and every final level. -/
structure FrameResult where
  bEff   : Nat
  dB     : Nat
  dR     : Nat
  floor  : Nat
  allowR : Nat
  grantR : Nat
  allowB : Nat
  board  : List CellLamps
  ribbon : List DotColumn
deriving DecidableEq, Repr

/-- The lamp driver's state (chapter 6's table). `effective` is the effective budget in force
(log entry 18); `result` is none while no frame has been latched, and every lamp is then dark. -/
structure LampDriver where
  warmUp    : Nat
  effective : Nat
  image     : List CellLamps
  window    : List (Option WindowColumn)
  result    : Option FrameResult
deriving DecidableEq, Repr

/-! ### The terminals and the inquiry unit -/

/-- One matrix position: its debounced reading (true is down) and disagreement count (R137). -/
structure Debounce where
  down  : Bool
  count : Nat
deriving DecidableEq, Repr

/-- An outstanding ask (chapter 8's second table). -/
structure Ask where
  tag      : Byte
  symbol   : Symbol
  deadline : TickCount
deriving DecidableEq, Repr

/-- A limit: a price with a direction (R171). -/
structure Limit where
  price     : Nat
  direction : Direction
deriving DecidableEq, Repr

/-- A watch entry; with no limit it is disarmed (R168). -/
structure WatchEntry where
  symbol : Symbol
  limit  : Option Limit
deriving DecidableEq, Repr

/-- An alert (R173). -/
structure Alert where
  symbol    : Symbol
  price     : Nat
  direction : Direction
deriving DecidableEq, Repr

/-- The two display lines, 20 character codes each (R153). -/
structure Display where
  line1 : List Glyph
  line2 : List Glyph
deriving DecidableEq, Repr

/-- One terminal: the terminal unit's state (chapter 7's table), its beeper drive pin, and the inquiry
unit's collections for it (chapter 8's table). -/
structure Terminal where
  state        : TermState
  entry        : List (Fin 26)
  whole        : List (Fin 10)
  fracMark     : Bool
  eighths      : Option (Fin 8)
  shown        : Option Symbol
  keyQueue     : List Key
  debounce     : List Debounce
  ghostLock    : Bool
  message      : Option Message
  messageTimer : Nat
  beeper       : Nat
  beeperOn     : Bool
  display      : Display
  ask          : Option Ask
  watch        : List WatchEntry
  alerts       : List Alert
deriving DecidableEq, Repr

/-- Four of a thing, one a terminal. -/
structure Quad (α : Type) where
  t0 : α
  t1 : α
  t2 : α
  t3 : α
deriving DecidableEq, Repr

/-! ### The line interface -/

/-- A character as a Handoff carries it (R100). -/
structure HandoffChar where
  entry : Col
  glyph : Glyph
  attr  : Attr
deriving DecidableEq, Repr

/-- What a queued frame carries: its body, or the source its body is stamped from (R184). -/
inductive TxPayload where
  | handoff (offset : BitVec 16) (first : Col) (chars : List HandoffChar)
  | ask (terminal : Fin 4) (tag : Byte) (symbol : Symbol)
  | answer (terminal : Fin 4) (tag : Byte) (symbol : Symbol)
  | pace (ribbon : Fin 4)
  | tally (status : Byte) (counts : List Nat)
deriving DecidableEq, Repr

/-- A frame of a transmit queue (R184): destination, payload and retry count. -/
structure TxFrame where
  dest    : Byte
  payload : TxPayload
  retries : Nat
deriving DecidableEq, Repr

/-- The frame on the line: the queue whose head it is; its class, and its destination, origin and body as
stamped at the start of the attempt; how far the attempt has come: `sent` counts the bytes sent outside
HOLD, escapes included, `held` the hold bytes read as held in a row, and `holdOver` says that the hold
section has ended (R178, R187). -/
structure Sending where
  queue    : QueueId
  cls      : MsgClass
  frame    : Frame
  sent     : Nat
  held     : Nat
  holdOver : Bool
deriving DecidableEq, Repr

/-- The frame in assembly: its decoded class once CLASS is read, the unescaped bytes read after CLASS
less the hold bytes (DEST, LEN, ORIGIN, body, CHECK), the escape-pending mark and the in-hold-section
mark (section 9.1's table), and whether a hold byte of the frame has been read as held, on which R183's
silence turns. In SKIPPING only the escape mark is used. -/
structure Assembly where
  cls      : Option (BitVec 4)
  bytes    : List Byte
  escape   : Bool
  inHold   : Bool
  heldRead : Bool
deriving DecidableEq, Repr

/-- A frame whose CHECK byte has been read and which awaits its disposal under R191 (log entry 18). -/
structure Completed where
  cls   : BitVec 4
  frame : Frame
  check : Byte
deriving DecidableEq, Repr

/-- A checked frame in a receive slot, with its class as decoded and corrected (R191). -/
structure RxSlot where
  cls   : MsgClass
  frame : Frame
deriving DecidableEq, Repr

/-- The line interface's state (section 9.1's table). `slots` lists the occupied receive slots, the
oldest arrival first; `dispatching` says that the frame handler has taken the oldest slot's frame and
that its dispatch has not ended (R192). -/
structure Line where
  bitTime      : Nat
  quiet        : Nat
  assembler    : AsmState
  assembly     : Assembly
  completed    : Option Completed
  slots        : List RxSlot
  dispatching  : Bool
  tapeQueue    : List TxFrame
  generalQueue : List TxFrame
  sending      : Option Sending
  ownFrameWait : Bool
  holding      : Bool
  holdDrive    : Bool
deriving DecidableEq, Repr

/-- The twelve tallies (R202). -/
structure Tallies where
  goodFrames        : Nat
  classCorrections  : Nat
  framesDiscarded   : Nat
  arbitrationLosses : Nat
  holdsAsserted     : Nat
  framesAbandoned   : Nat
  tapeRefused       : Nat
  charsDropped      : Nat
  lateChars         : Nat
  paceJumps         : Nat
  asksTimedOut      : Nat
  keysAlertsDropped : Nat
deriving DecidableEq, Repr

/-! ### The state -/

/-- The state of one 316 and the queue of commands that wait for it. -/
structure State where
  resetAsserted : Bool
  straps        : Straps
  tickCount     : TickCount
  table         : List QuoteRecord
  cells         : List CellRecord
  composer      : Composer
  crawl         : Crawl
  lamps         : LampDriver
  terminals     : Quad Terminal
  askTag        : Byte
  line          : Line
  tallies       : Tallies
  lineSilence   : Nat
  faultLamp     : Bool
  pending       : List Instr
deriving DecidableEq, Repr

/-- Why a 316 would stop. No rule of the spec stops the machine, so there is no reason and no command
raises one: a refused message, key or item is counted or beeped and the station goes on. Safe. -/
inductive Fault where
deriving DecidableEq, Repr

/-- Why a command would have no meaning. -/
inductive Refusal where
  /-- Raised only by a refused arm of exec, for a command that has no meaning yet. Safe. No arm is
  refused in this model. -/
  | notModelled (mnemonic : String)
deriving DecidableEq, Repr

/-! ### The state after power-on reset -/

/-- A cell at power-on reset (R44). -/
def CellRecord.atReset (n : Fin 16) : CellRecord :=
  { number := n, link := none, pattern := .steady, position := 0, repeats := false }

/-- The sixteen cells at power-on reset (R44). -/
def cellsAtReset : List CellRecord :=
  [0, 1, 2, 3, 4, 5, 6, 7, 8, 9, 10, 11, 12, 13, 14, 15].map CellRecord.atReset

/-- The composer at power-on reset and after Day Start (R87, R88). -/
def Composer.atReset : Composer :=
  { printQueue := [], recent := [], level := 0, idleTimer := some 0, overflow := false,
    nextIndex := 0, nextEntry := none }

/-- The crawl unit of a station with no ribbon at power-on reset (R115). -/
def Crawl.atReset : Crawl :=
  { segState := .dark, stepCount := 0, paceLevel := 0, counter := 0, period := 1920, staged := none,
    slew := 0, phase := 0, offset := none, paceHeard := false, silence := none, hold := [],
    pendingPace := false }

/-- The image of a cell with all 58 lamps dark (R47, R48). -/
def CellLamps.dark : CellLamps :=
  { price := List.replicate 28 0, tick := List.replicate 2 0, change := List.replicate 24 0,
    status := List.replicate 4 0 }

/-- A display of forty spaces (R155). -/
def Display.blank : Display :=
  { line1 := List.replicate 20 0, line2 := List.replicate 20 0 }

/-- A terminal at power-on reset (R155, R175). -/
def Terminal.atReset : Terminal :=
  { state := .idle, entry := [], whole := [], fracMark := false, eighths := none, shown := none,
    keyQueue := [], debounce := List.replicate 48 { down := false, count := 0 }, ghostLock := false,
    message := none, messageTimer := 0, beeper := 0, beeperOn := false, display := Display.blank,
    ask := none, watch := [], alerts := [] }

/-- No frame in assembly. -/
def Assembly.empty : Assembly :=
  { cls := none, bytes := [], escape := false, inHold := false, heldRead := false }

/-- The line interface at power-on reset with the given bit time (R195). -/
def Line.atReset (bitTime : Nat) : Line :=
  { bitTime := bitTime, quiet := 0, assembler := .waitingForQuiet, assembly := Assembly.empty,
    completed := none, slots := [], dispatching := false, tapeQueue := [], generalQueue := [], sending := none,
    ownFrameWait := false, holding := false, holdDrive := false }

/-- All tallies at 0 (R202). -/
def Tallies.zero : Tallies :=
  { goodFrames := 0, classCorrections := 0, framesDiscarded := 0, arbitrationLosses := 0,
    holdsAsserted := 0, framesAbandoned := 0, tapeRefused := 0, charsDropped := 0, lateChars := 0,
    paceJumps := 0, asksTimedOut := 0, keysAlertsDropped := 0 }

/-- The straps a station reads when every strap pin reads 0 (R198). -/
def Straps.allZero : Straps :=
  { station := none, bitTime := 4, ribbon := none, segment := 0, tail := false, width := 48,
    terminals := 0, board := false, budget := 1024 }

/-- The machine right after power-on reset (R200). The spec gives the strap pins no value: here all
25 read 0 (log entry 1, DESIGN CHOICE); POWER_ON_RESET with other pins gives any other station. -/
def State.reset : State :=
  { resetAsserted := false
    straps := Straps.allZero
    tickCount := 0
    table := []
    cells := cellsAtReset
    composer := Composer.atReset
    crawl := Crawl.atReset
    lamps := { warmUp := 0, effective := 256, image := List.replicate 16 CellLamps.dark,
               window := List.replicate 48 none, result := none }
    terminals := ⟨Terminal.atReset, Terminal.atReset, Terminal.atReset, Terminal.atReset⟩
    askTag := 0
    line := Line.atReset 4
    tallies := Tallies.zero
    lineSilence := 80
    faultLamp := true
    pending := [] }

end Sys2Proof.Machine
end

