-- ==== Sys2Proof/Machine/Ops.lean ====
section
/-!
DEFINITION. The named operations over State that the meanings share: one setter a block, the straps'
predicates, the tallies, the table's recency list, the cells, the terminals and the transmit queues.
-/
namespace Sys2Proof.Machine

/-! ### A meaning's outcome -/

/-- A command's effect while the part is in service. While the reset pin is asserted the blocks do not
run (R197: the part starts when the pin is released; log entry 7), so nothing changes. -/
def inService (s : State) (f : State → State) : Host.Outcome State Fault Refusal :=
  .next (if s.resetAsserted then s else f s)

/-! ### Setters, one a block -/

/-- s with the quote table t. -/
def State.withTable (s : State) (t : List QuoteRecord) : State := { s with table := t }
/-- s with the cells c. -/
def State.withCells (s : State) (c : List CellRecord) : State := { s with cells := c }
/-- s with the composer c. -/
def State.withComposer (s : State) (c : Composer) : State := { s with composer := c }
/-- s with the crawl unit c. -/
def State.withCrawl (s : State) (c : Crawl) : State := { s with crawl := c }
/-- s with the lamp driver l. -/
def State.withLamps (s : State) (l : LampDriver) : State := { s with lamps := l }
/-- s with the terminals q. -/
def State.withTerminals (s : State) (q : Quad Terminal) : State := { s with terminals := q }
/-- s with the ask tag counter at n. -/
def State.withAskTag (s : State) (n : Byte) : State := { s with askTag := n }
/-- s with the line interface l. -/
def State.withLine (s : State) (l : Line) : State := { s with line := l }
/-- s with the tallies t. -/
def State.withTallies (s : State) (t : Tallies) : State := { s with tallies := t }
/-- s with the tick count n. -/
def State.withTickCount (s : State) (n : TickCount) : State := { s with tickCount := n }
/-- s with the line-silence timer at n and the fault lamp as given. -/
def State.withSilence (s : State) (n : Nat) (lamp : Bool) : State :=
  { s with lineSilence := n, faultLamp := lamp }

/-! ### Arithmetic of columns (conventions of 00, R95) -/

/-- The signed difference a − b of two 24-bit counts, from −2^23 to 2^23 − 1. -/
def sdiff (a b : Col) : Int := (a - b).toInt

/-! ### Straps -/

/-- R190: a station strapped 0 or 63 is listen-only. -/
def State.listenOnly (s : State) : Bool := s.straps.station.isNone

/-- R63: the head of a ribbon. -/
def State.isHead (s : State) : Bool := s.straps.ribbon.isSome && s.straps.segment == 0

/-- R89: the tail of a ribbon. -/
def State.isTail (s : State) : Bool := s.straps.tail || s.straps.segment == 7

/-- R135: terminals 0 to count − 1 are active. -/
def State.active (s : State) (t : Fin 4) : Bool := decide (t.val < s.straps.terminals)

/-- R89: the segment address 0x80 + 16 × r + n of segment n of ribbon r. -/
def segmentAddress (r : Fin 4) (n : Nat) : Byte := BitVec.ofNat 8 (0x80 + 16 * r.val + n)

/-- R182: the destination is this station's own number. -/
def State.isOwnNumber (s : State) (d : Byte) : Bool :=
  match s.straps.station with
  | some n => d.toNat == n
  | none => false

/-- R89: the destination is this station's segment address. -/
def State.isOwnSegment (s : State) (d : Byte) : Bool :=
  match s.straps.ribbon with
  | some r => d == segmentAddress r s.straps.segment
  | none => false

/-- R182: the destination is another station. -/
def State.isOtherStation (s : State) (d : Byte) : Bool :=
  decide (1 ≤ d.toNat ∧ d.toNat ≤ 62) && !s.isOwnNumber d

/-- R182: the frame's destination concerns this station. -/
def State.concerns (s : State) (d : Byte) : Bool :=
  d == 0 || s.isOwnNumber d || s.isOwnSegment d

/-! ### Tallies (R202) -/

/-- A tally's count. -/
def Tallies.get (c : Tallies) : Tally → Nat
  | .goodFrames => c.goodFrames
  | .classCorrections => c.classCorrections
  | .framesDiscarded => c.framesDiscarded
  | .arbitrationLosses => c.arbitrationLosses
  | .holdsAsserted => c.holdsAsserted
  | .framesAbandoned => c.framesAbandoned
  | .tapeRefused => c.tapeRefused
  | .charsDropped => c.charsDropped
  | .lateChars => c.lateChars
  | .paceJumps => c.paceJumps
  | .asksTimedOut => c.asksTimedOut
  | .keysAlertsDropped => c.keysAlertsDropped

/-- R202: one more, staying at 65,535. -/
def saturate (n : Nat) : Nat := if n < Config.tallyMax then n + 1 else n

/-- R202: one event of a tally. -/
def Tallies.bump (c : Tallies) : Tally → Tallies
  | .goodFrames => { c with goodFrames := saturate c.goodFrames }
  | .classCorrections => { c with classCorrections := saturate c.classCorrections }
  | .framesDiscarded => { c with framesDiscarded := saturate c.framesDiscarded }
  | .arbitrationLosses => { c with arbitrationLosses := saturate c.arbitrationLosses }
  | .holdsAsserted => { c with holdsAsserted := saturate c.holdsAsserted }
  | .framesAbandoned => { c with framesAbandoned := saturate c.framesAbandoned }
  | .tapeRefused => { c with tapeRefused := saturate c.tapeRefused }
  | .charsDropped => { c with charsDropped := saturate c.charsDropped }
  | .lateChars => { c with lateChars := saturate c.lateChars }
  | .paceJumps => { c with paceJumps := saturate c.paceJumps }
  | .asksTimedOut => { c with asksTimedOut := saturate c.asksTimedOut }
  | .keysAlertsDropped => { c with keysAlertsDropped := saturate c.keysAlertsDropped }

/-- The twelve counts in report order (R202). -/
def Tallies.report (c : Tallies) : List Nat :=
  [c.goodFrames, c.classCorrections, c.framesDiscarded, c.arbitrationLosses, c.holdsAsserted,
   c.framesAbandoned, c.tapeRefused, c.charsDropped, c.lateChars, c.paceJumps, c.asksTimedOut,
   c.keysAlertsDropped]

/-- An event that a rule counts in tally k. -/
def State.count (s : State) (k : Tally) : State := s.withTallies (s.tallies.bump k)

/-! ### The quote table (R20 to R26) -/

/-- R20: the record of a symbol, if it is held. -/
def findRecord (sym : Symbol) (table : List QuoteRecord) : Option QuoteRecord :=
  table.find? (fun r => r.symbol == sym)

/-- The table with f applied to the record of a symbol; places are kept. -/
def updateRecord (sym : Symbol) (f : QuoteRecord → QuoteRecord) (table : List QuoteRecord) :
    List QuoteRecord :=
  table.map (fun r => if r.symbol = sym then f r else r)

/-- R26: the record of a symbol moved to the front of the recency list. -/
def moveToFront (sym : Symbol) (table : List QuoteRecord) : List QuoteRecord :=
  match findRecord sym table with
  | some r => r :: table.filter (fun q => q.symbol != sym)
  | none => table

/-- R25: a record is pinned while a cell pins it or a terminal refers to it. -/
def QuoteRecord.pinned (r : QuoteRecord) : Bool := !r.pins.isEmpty || decide (0 < r.refs)

/-- R22: the table without its least recent unpinned record. -/
def evict (table : List QuoteRecord) : List QuoteRecord :=
  (table.reverse.eraseP (fun r => !r.pinned)).reverse

/-- R17: a record as it is created. -/
def QuoteRecord.fresh (sym : Symbol) : QuoteRecord :=
  { symbol := sym, reference := none, last := none, setter := none, prior := none, bid := none,
    ask := none, state := .opened, suspect := false, age := 65535, pins := [], refs := 0 }

/-- R21: a symbol not held is installed at the front, after an eviction when 64 records are held. -/
def install (sym : Symbol) (table : List QuoteRecord) : List QuoteRecord :=
  QuoteRecord.fresh sym :: (if table.length < Config.tableSize then table else evict table)

/-- R37, R39: the table with the symbol held, installing it if it is not. -/
def ensureHeld (sym : Symbol) (table : List QuoteRecord) : List QuoteRecord :=
  match findRecord sym table with
  | some _ => table
  | none => install sym table

/-- The sixteen cell numbers in rising order. -/
def cellNumbers : List (Fin 16) := [0, 1, 2, 3, 4, 5, 6, 7, 8, 9, 10, 11, 12, 13, 14, 15]

/-- R23: a cell joins a record's cell pins (kept in rising order, each cell once). -/
def QuoteRecord.addPin (c : Fin 16) (r : QuoteRecord) : QuoteRecord :=
  { r with pins := cellNumbers.filter (fun k => k == c || r.pins.contains k) }

/-- R23: a cell leaves a record's cell pins. -/
def QuoteRecord.dropPin (c : Fin 16) (r : QuoteRecord) : QuoteRecord :=
  { r with pins := r.pins.filter (fun k => k != c) }

/-- R24: one terminal reference more. -/
def QuoteRecord.addRef (r : QuoteRecord) : QuoteRecord := { r with refs := r.refs + 1 }

/-- R24: one terminal reference less. -/
def QuoteRecord.dropRef (r : QuoteRecord) : QuoteRecord := { r with refs := r.refs - 1 }

/-- s with f applied to the record of a symbol. -/
def State.onRecord (s : State) (sym : Symbol) (f : QuoteRecord → QuoteRecord) : State :=
  s.withTable (updateRecord sym f s.table)

/-! ### The board cells -/

/-- The cell with a number. -/
def State.cell (s : State) (n : Fin 16) : Option CellRecord :=
  s.cells.find? (fun c => c.number == n)

/-- s with f applied to every cell whose number is in ns: one hand-over to those cells. -/
def State.onCells (s : State) (ns : List (Fin 16)) (f : CellRecord → CellRecord) : State :=
  s.withCells (s.cells.map (fun c => if ns.contains c.number then f c else c))

/-! ### The terminals -/

/-- The t-th of four. -/
def Quad.get {α : Type} (q : Quad α) (t : Fin 4) : α :=
  match t with
  | 0 => q.t0
  | 1 => q.t1
  | 2 => q.t2
  | 3 => q.t3

/-- The four with the t-th replaced. -/
def Quad.set {α : Type} (q : Quad α) (t : Fin 4) (x : α) : Quad α :=
  match t with
  | 0 => { q with t0 := x }
  | 1 => { q with t1 := x }
  | 2 => { q with t2 := x }
  | 3 => { q with t3 := x }

/-- f applied to each of four. -/
def Quad.map {α : Type} (f : α → α) (q : Quad α) : Quad α := ⟨f q.t0, f q.t1, f q.t2, f q.t3⟩

/-- Terminal t. -/
def State.term (s : State) (t : Fin 4) : Terminal := s.terminals.get t

/-- s with terminal t replaced. -/
def State.setTerm (s : State) (t : Fin 4) (x : Terminal) : State :=
  s.withTerminals (s.terminals.set t x)

/-- s with f applied to terminal t. -/
def State.onTerm (s : State) (t : Fin 4) (f : Terminal → Terminal) : State :=
  s.setTerm t (f (s.term t))

/-- The terminals in order. -/
def terminalNumbers : List (Fin 4) := [0, 1, 2, 3]

/-! ### Setters inside a block -/

/-- s with f applied to the crawl unit. -/
def State.onCrawl (s : State) (f : Crawl → Crawl) : State := s.withCrawl (f s.crawl)
/-- s with f applied to the composer. -/
def State.onComposer (s : State) (f : Composer → Composer) : State := s.withComposer (f s.composer)
/-- s with f applied to the line interface. -/
def State.onLine (s : State) (f : Line → Line) : State := s.withLine (f s.line)

/-! ### The transmit queues (R184, R189) -/

/-- The frame on the line is the head of the general queue. -/
def State.sendingGeneral (s : State) : Bool :=
  match s.line.sending with
  | some x => x.queue == .general
  | none => false

/-- The frame on the line is the head of the tape queue. -/
def State.sendingTape (s : State) : Bool :=
  match s.line.sending with
  | some x => x.queue == .tape
  | none => false

/-- The general queue holds 4 frames. -/
def State.generalFull (s : State) : Bool :=
  decide (Config.generalQueueSize ≤ s.line.generalQueue.length)

/-- R184: a frame joins the general queue with retry count 0. -/
def State.appendGeneral (s : State) (dest : Byte) (p : TxPayload) : State :=
  s.onLine (fun l => { l with generalQueue := l.generalQueue ++ [⟨dest, p, 0⟩] })

/-- R184: a frame joins the tape queue with retry count 0. -/
def State.appendTape (s : State) (dest : Byte) (p : TxPayload) : State :=
  s.onLine (fun l => { l with tapeQueue := l.tapeQueue ++ [⟨dest, p, 0⟩] })

/-- The frames of a queue that are not on the line. -/
def waitingFrames (onLine : Bool) (q : List TxFrame) : List TxFrame := if onLine then q.tail else q

/-- R189: the frames that match p and are not on the line leave the general queue. -/
def State.withdraw (s : State) (p : TxFrame → Bool) : State :=
  s.onLine (fun l => { l with generalQueue :=
    (if s.sendingGeneral then l.generalQueue.take 1 else []) ++
      (waitingFrames s.sendingGeneral l.generalQueue).filter (fun f => !p f) })

/-- The frame is the Ask of a terminal with a tag. -/
def TxFrame.isAskOf (t : Fin 4) (tag : Byte) (f : TxFrame) : Bool :=
  match f.payload with
  | .ask t' tag' _ => t' == t && tag' == tag
  | _ => false

/-- The frame is an Answer with the ask key of chapter 8: asking station, terminal and tag. -/
def TxFrame.isAnswerTo (dest : Byte) (t : Fin 4) (tag : Byte) (f : TxFrame) : Bool :=
  match f.payload with
  | .answer t' tag' _ => f.dest == dest && t' == t && tag' == tag
  | _ => false

/-- The frame is an Answer. -/
def TxFrame.isAnswer (f : TxFrame) : Bool :=
  match f.payload with
  | .answer _ _ _ => true
  | _ => false

/-- The frame is a Pace. -/
def TxFrame.isPace (f : TxFrame) : Bool :=
  match f.payload with
  | .pace _ => true
  | _ => false

/-- R110: a Pace frame joins the general queue, addressed to the whole floor. -/
def queuePace (r : Fin 4) (s : State) : State := s.appendGeneral 0 (.pace r)

/-- R110: a head's request for a Pace mark. A Pace that waits and is not on the line meets it; a full
queue makes it pending; a listen-only head makes none (R107). A frame queued here also meets a request
still pending, which had been queued first had it been taken before (log entry 12). -/
def requestPace (s : State) : State :=
  match s.straps.ribbon with
  | none => s
  | some r =>
    if s.listenOnly || s.straps.segment != 0 then s
    else if (waitingFrames s.sendingGeneral s.line.generalQueue).any TxFrame.isPace then s
    else if s.generalFull then s.onCrawl (fun c => { c with pendingPace := true })
    else (queuePace r s).onCrawl (fun c => { c with pendingPace := false })

/-- R110: a pending Pace request is met once the general queue has room, and is cleared. -/
def meetPendingPace (s : State) : State :=
  match s.straps.ribbon with
  | none => s
  | some r =>
    if s.crawl.pendingPace && !s.generalFull then
      (queuePace r s).onCrawl (fun c => { c with pendingPace := false })
    else s

end Sys2Proof.Machine
end

