-- ==== Sys2Proof/Machine/Operands.lean ====
section
/-!
DEFINITION. The fields of the received messages: the encodings of R206, the body layouts of R208 and
R209, and the checks of R2 to R5, R35, R100, R111, R161 and R194. A reader answers none for a frame
that the frame handler refuses, however many of its checks fail (R194).
-/
namespace Sys2Proof.Machine

/-! ### Fields (R206) -/

/-- Body byte i, 0 past the end. -/
def byteAt (b : List Byte) (i : Nat) : Byte := b.getD i 0

/-- A two-byte field, least significant byte first. -/
def word16 (b : List Byte) (i : Nat) : BitVec 16 := byteAt b (i + 1) ++ byteAt b i

/-- A three-byte field, least significant byte first. -/
def word24 (b : List Byte) (i : Nat) : Col := byteAt b (i + 2) ++ byteAt b (i + 1) ++ byteAt b i

/-- A two-byte count. -/
def count16 (b : List Byte) (i : Nat) : Nat := (word16 b i).toNat

/-- A character code of a symbol: a letter is 1 to 26. -/
def isLetterCode (c : Byte) : Bool := decide (1 ≤ c.toNat ∧ c.toNat ≤ 26)

/-- R4: 1 to 4 letters in the leading places and spaces (code 0) in the rest. -/
def symbolValid (a b c d : Byte) : Bool :=
  isLetterCode a && (isLetterCode b || (b == 0 && c == 0)) &&
    (isLetterCode c || (c == 0 && d == 0)) && (isLetterCode d || d == 0)

/-- R4: the valid symbol at offset i, none when it is invalid. -/
def symbolAt (b : List Byte) (i : Nat) : Option Symbol :=
  if symbolValid (byteAt b i) (byteAt b (i + 1)) (byteAt b (i + 2)) (byteAt b (i + 3)) then
    some { p0 := (byteAt b i).setWidth 6, p1 := (byteAt b (i + 1)).setWidth 6,
           p2 := (byteAt b (i + 2)).setWidth 6, p3 := (byteAt b (i + 3)).setWidth 6 }
  else none

/-- R4: the clear value of a Plan, four spaces. -/
def isClearAt (b : List Byte) (i : Nat) : Bool :=
  byteAt b i == 0 && byteAt b (i + 1) == 0 && byteAt b (i + 2) == 0 && byteAt b (i + 3) == 0

/-- R1: a valid price. -/
def priceValid (p : Nat) : Bool := decide (1 ≤ p ∧ p ≤ Config.priceMax)

/-- R1, R206: an optional price field, 0 for absent. -/
def optionalPrice (p : Nat) : Option Nat := if p = 0 then none else some p

/-- R3: lots of 0 are taken as 1. -/
def lotsTaken (n : Nat) : Nat := if n = 0 then 1 else n

/-- R5, R206: the kind of a Print. -/
def kindOf (b : Byte) : Option PrintKind :=
  match b.toNat with
  | 0 => some .regular
  | 1 => some .opening
  | 2 => some .late
  | _ => none

/-- R5, R206: a trading state. -/
def stateOf (b : Byte) : Option TradingState :=
  match b.toNat with
  | 0 => some .opened
  | 1 => some .halted
  | 2 => some .delayed
  | 3 => some .closed
  | _ => none

/-- R5, R206: a tick. -/
def tickOf (b : Byte) : Option Tick :=
  match b.toNat with
  | 0 => some .noTick
  | 1 => some .plus
  | 2 => some .zeroPlus
  | 3 => some .minus
  | 4 => some .zeroMinus
  | _ => none

/-- R206: the byte of a trading state. -/
def TradingState.code : TradingState → Byte
  | .opened => 0
  | .halted => 1
  | .delayed => 2
  | .closed => 3

/-- R206: the byte of a tick. -/
def Tick.code : Tick → Byte
  | .noTick => 0
  | .plus => 1
  | .zeroPlus => 2
  | .minus => 3
  | .zeroMinus => 4

/-- R111, R161, R163: a field of 0 to 3 (a terminal, a ribbon), refused above 3. -/
def terminalOf (b : Byte) : Option (Fin 4) :=
  if h : b.toNat < 4 then some ⟨b.toNat, h⟩ else none

/-- R206: the tape mask includes a ribbon. -/
def maskIncludes (mask : Byte) (r : Fin 4) : Bool := mask.getLsbD r.val

/-! ### Messages -/

/-- A Print (R208). -/
structure PrintMsg where
  id     : PrintId
  mask   : Byte
  kind   : PrintKind
  symbol : Symbol
  price  : Nat
  lots   : Nat
deriving DecidableEq, Repr

/-- R208, R2 to R5: a Print; its identity is the frame's ORIGIN and its serial. -/
def readPrint (f : Frame) : Option PrintMsg :=
  match kindOf (byteAt f.body 3), symbolAt f.body 4 with
  | some kind, some sym =>
    if f.body.length = 12 ∧ priceValid (count16 f.body 8) then
      some { id := ⟨f.origin, word16 f.body 0⟩, mask := byteAt f.body 2, kind := kind, symbol := sym,
             price := count16 f.body 8, lots := lotsTaken (count16 f.body 10) }
    else none
  | _, _ => none

/-- A Quote (R208). -/
structure QuoteMsg where
  symbol : Symbol
  bid    : Option Nat
  ask    : Option Nat
deriving DecidableEq, Repr

/-- R208, R2, R4: a Quote. -/
def readQuote (f : Frame) : Option QuoteMsg :=
  match symbolAt f.body 0 with
  | some sym =>
    if f.body.length = 8 ∧ count16 f.body 4 ≤ Config.priceMax ∧ count16 f.body 6 ≤ Config.priceMax then
      some { symbol := sym, bid := optionalPrice (count16 f.body 4),
             ask := optionalPrice (count16 f.body 6) }
    else none
  | none => none

/-- A Status (R208). -/
structure StatusMsg where
  symbol : Symbol
  mask   : Byte
  state  : TradingState
deriving DecidableEq, Repr

/-- R208, R4, R5: a Status. -/
def readStatus (f : Frame) : Option StatusMsg :=
  match symbolAt f.body 0, stateOf (byteAt f.body 5) with
  | some sym, some st =>
    if f.body.length = 6 then some { symbol := sym, mask := byteAt f.body 4, state := st } else none
  | _, _ => none

/-- A Cancel (R208). -/
structure CancelMsg where
  id     : PrintId
  mask   : Byte
  symbol : Symbol
  price  : Nat
  lots   : Nat
deriving DecidableEq, Repr

/-- R208, R2 to R4: a Cancel; it names the print by its own body fields. -/
def readCancel (f : Frame) : Option CancelMsg :=
  match symbolAt f.body 4 with
  | some sym =>
    if f.body.length = 12 ∧ priceValid (count16 f.body 8) then
      some { id := ⟨byteAt f.body 0, word16 f.body 1⟩, mask := byteAt f.body 3, symbol := sym,
             price := count16 f.body 8, lots := lotsTaken (count16 f.body 10) }
    else none
  | none => none

/-- A Plan (R208); no symbol for the clear value. -/
structure PlanMsg where
  cell      : Fin 16
  symbol    : Option Symbol
  reference : Option Nat
deriving DecidableEq, Repr

/-- R35, R208: a Plan's cell number, refused at 16 and above. -/
def cellOf (b : Byte) : Option (Fin 16) :=
  if h : b.toNat < 16 then some ⟨b.toNat, h⟩ else none

/-- R4: the symbol field of a Plan: the clear value, a valid symbol, or neither. -/
def planSymbol (b : List Byte) : Option (Option Symbol) :=
  if isClearAt b 1 then some none else (symbolAt b 1).map some

/-- R208, R2, R4, R35: a Plan at a station with or without a board. -/
def readPlan (board : Bool) (f : Frame) : Option PlanMsg :=
  match cellOf (byteAt f.body 0), planSymbol f.body with
  | some c, some sym =>
    if f.body.length = 7 ∧ board ∧ count16 f.body 5 ≤ Config.priceMax then
      some { cell := c, symbol := sym, reference := optionalPrice (count16 f.body 5) }
    else none
  | _, _ => none

/-- An Ask (R209). -/
structure AskMsg where
  terminal : Fin 4
  tag      : Byte
  symbol   : Symbol
deriving DecidableEq, Repr

/-- R209, R4, R163: an Ask. -/
def readAsk (f : Frame) : Option AskMsg :=
  match terminalOf (byteAt f.body 0), symbolAt f.body 2 with
  | some t, some sym =>
    if f.body.length = 6 then some { terminal := t, tag := byteAt f.body 1, symbol := sym } else none
  | _, _ => none

/-- An Answer (R209): a field whose presence flag is clear is absent. -/
structure AnswerMsg where
  terminal  : Fin 4
  tag       : Byte
  symbol    : Symbol
  reference : Option Nat
  last      : Option LastGroup
  bid       : Option Nat
  ask       : Option Nat
  state     : TradingState
deriving DecidableEq, Repr

/-- R2, R209: a price read only when its presence flag is set; refused (outer none) out of range. -/
def flaggedPrice (present : Bool) (p : Nat) : Option (Option Nat) :=
  if present then (if priceValid p then some (some p) else none) else some none

/-- R2, R3, R5, R209: an Answer's last group, its tick and lots read only when the flag is set. -/
def flaggedLast (present : Bool) (price lots : Nat) (tick : Byte) : Option (Option LastGroup) :=
  if present then
    match tickOf tick with
    | some k => if priceValid price then some (some ⟨price, lotsTaken lots, k⟩) else none
    | none => none
  else some none

/-- R209, R2 to R5, R161: an Answer. -/
def readAnswer (f : Frame) : Option AnswerMsg :=
  match terminalOf (byteAt f.body 0), symbolAt f.body 2, stateOf (byteAt f.body 18),
      flaggedPrice ((byteAt f.body 6).getLsbD 0) (count16 f.body 7),
      flaggedLast ((byteAt f.body 6).getLsbD 1) (count16 f.body 9) (count16 f.body 12)
        (byteAt f.body 11),
      flaggedPrice ((byteAt f.body 6).getLsbD 2) (count16 f.body 14),
      flaggedPrice ((byteAt f.body 6).getLsbD 3) (count16 f.body 16) with
  | some t, some sym, some st, some ref, some last, some bid, some ask =>
    if f.body.length = 19 then
      some { terminal := t, tag := byteAt f.body 1, symbol := sym, reference := ref, last := last,
             bid := bid, ask := ask, state := st }
    else none
  | _, _, _, _, _, _, _ => none

/-- A Handoff (R100): its characters carry consecutive indices from `first`. -/
structure HandoffMsg where
  offset : BitVec 16
  first  : Col
  chars  : List HandoffChar
deriving DecidableEq, Repr

/-- R209: an attribute byte of 1 names NOTICE, any other NORMAL. -/
def attrOf (b : Byte) : Attr := if b = 1 then .notice else .normal

/-- R209: character j of a Handoff; the glyph is the byte's low six bits. -/
def handoffChar (b : List Byte) (j : Nat) : HandoffChar :=
  { entry := word24 b (6 + 5 * j), glyph := (byteAt b (9 + 5 * j)).setWidth 6,
    attr := attrOf (byteAt b (10 + 5 * j)) }

/-- R100, R208, R209: a Handoff with a count of 1 to 4 and a body of 6 + 5 × count bytes. -/
def readHandoff (f : Frame) : Option HandoffMsg :=
  if 1 ≤ (byteAt f.body 2).toNat ∧ (byteAt f.body 2).toNat ≤ 4 ∧
      f.body.length = 6 + 5 * (byteAt f.body 2).toNat then
    some { offset := word16 f.body 0, first := word24 f.body 3,
           chars := (List.range (byteAt f.body 2).toNat).map (handoffChar f.body) }
  else none

/-- A Pace (R111): its form level equals its pace level. -/
structure PaceMsg where
  ribbon : Fin 4
  level  : Nat
  steps  : Col
deriving DecidableEq, Repr

/-- R111, R208, R209: a Pace with ribbon and levels of 0 to 3 and equal levels. -/
def readPace (f : Frame) : Option PaceMsg :=
  match terminalOf (byteAt f.body 0) with
  | some r =>
    if f.body.length = 6 ∧ (byteAt f.body 1).toNat ≤ 3 ∧ byteAt f.body 2 = byteAt f.body 1 then
      some { ribbon := r, level := (byteAt f.body 1).toNat, steps := word24 f.body 3 }
    else none
  | none => none

/-- R201: a Day Start has an empty body. -/
def readDayStart (f : Frame) : Option Unit := if f.body.length = 0 then some () else none

/-- R203, R208: a Tally Query's clear flag. -/
def readTallyQuery (f : Frame) : Option Bool :=
  if f.body.length = 1 then some ((byteAt f.body 0).getLsbD 0) else none

end Sys2Proof.Machine
end

