-- ==== Sys2Proof/Machine/Flags.lean ====
section
/-!
DEFINITION. The small computed values the spec gives: a print's tick and its direction, a net change,
the tape levels' tables, the Tally status byte.
-/
namespace Sys2Proof.Machine

/-! ### Ticks (R6, R7) -/

/-- R6: the tick of a print at price p against the record's last group. -/
def newTick (p : Nat) : Option LastGroup → Tick
  | none => .noTick
  | some q =>
    if q.price < p then .plus
    else if p < q.price then .minus
    else match q.tick with
      | .plus => .zeroPlus
      | .zeroPlus => .zeroPlus
      | .minus => .zeroMinus
      | .zeroMinus => .zeroMinus
      | .noTick => .noTick

/-- R7: an up tick. -/
def Tick.isUp : Tick → Bool
  | .plus => true
  | .zeroPlus => true
  | .noTick => false
  | .minus => false
  | .zeroMinus => false

/-- R7: a down tick. -/
def Tick.isDown : Tick → Bool
  | .minus => true
  | .zeroMinus => true
  | .noTick => false
  | .plus => false
  | .zeroPlus => false

/-! ### Net change (R8) -/

/-- R8: the net change of a record, in eighths, when both last and reference are present. -/
def netChange (r : QuoteRecord) : Option Int :=
  match r.last, r.reference with
  | some l, some ref => some ((l.price : Int) - (ref : Int))
  | _, _ => none

/-- R8: the displayed magnitude, saturated at 799. -/
def changeMagnitude (c : Int) : Nat := min c.natAbs 799

/-! ### Late-tape levels (R72, R94) -/

/-- R72, R94: the pace period of a level in timer clocks. -/
def pacePeriod (level : Nat) : Nat :=
  match level with
  | 0 => 1920
  | 1 => 1600
  | 2 => 1280
  | _ => 1024

/-- R72: the level after a print take of the given lateness: at most one step. -/
def levelAfter (level lateness : Nat) : Nat :=
  match level with
  | 0 => if 20 ≤ lateness then 1 else 0
  | 1 => if 40 ≤ lateness then 2 else if lateness ≤ 5 then 0 else 1
  | 2 => if 60 ≤ lateness then 3 else if lateness ≤ 15 then 1 else 2
  | n => if lateness ≤ 30 then n - 1 else n

/-- R71: the lateness in whole seconds of an item that arrived at tick a, taken at tick n. -/
def latenessOf (n a : TickCount) : Nat := (n - a).toNat / 8

/-! ### The Tally status byte (R204, R209) -/

/-- R209: the two status bits of a segment state. -/
def SegmentState.code : SegmentState → Nat
  | .dark => 0
  | .waiting => 1
  | .running => 2
  | .coasting => 3

/-- R204: the level a Tally reply reports. -/
def State.reportedLevel (s : State) : Nat :=
  if s.straps.ribbon.isNone then 0
  else if s.straps.segment == 0 then s.composer.level
  else s.crawl.paceLevel

/-- R204, R209: the status byte: bit 0 is 0, bits 1 and 2 the segment state, bits 3 and 4 the level. -/
def State.statusByte (s : State) : Byte :=
  BitVec.ofNat 8 (2 * s.crawl.segState.code + 8 * s.reportedLevel)

/-! ### The effective budget (R124) -/

/-- R124: the effective budget of a strapped budget at a warm-up count. -/
def budgetAt (budget warmUp : Nat) : Nat :=
  if warmUp < 32 then budget / 4 else if warmUp < 64 then budget / 2 else budget

end Sys2Proof.Machine
end

