-- ==== Sys2Proof/Machine/Text.lean ====
section
/-!
DEFINITION. Text: the character codes of R210, the terminal texts of R13 to R15, and the tape texts
of R77 to R83.
-/
namespace Sys2Proof.Machine

/-! ### Character codes (R210) -/

/-- The space. -/
def gSpace : Glyph := 0
/-- The "/" of a limit entry. -/
def gSlash : Glyph := 47
/-- The "*" of an alert line. -/
def gStar : Glyph := 48

/-- R210: the code of a letter, 0 for A. -/
def gLetter (l : Fin 26) : Glyph := BitVec.ofNat 6 (l.val + 1)

/-- R210: the code of a decimal figure. -/
def gDigit (d : Nat) : Glyph := BitVec.ofNat 6 (27 + d)

/-- R210: the code of the fraction glyph of e eighths, e from 1 to 7. -/
def gFraction (e : Nat) : Glyph := BitVec.ofNat 6 (36 + e)

/-- R210: the code of a character of the texts quoted in the rules: capital letters and the space. -/
def gChar (c : Char) : Glyph := if c = ' ' then 0 else BitVec.ofNat 6 (c.toNat - 64)

/-- A quoted text as character codes. -/
def glyphs (cs : List Char) : List Glyph := cs.map gChar

/-- R210: the full dot count of each character code, 0 for space and for codes 49 to 63. -/
def dotCounts : List Nat :=
  [0, 18, 20, 14, 18, 17, 13, 17, 17, 11, 11, 14, 11, 19, 19, 16] ++
  [15, 17, 18, 15, 9, 15, 11, 19, 13, 9, 15, 16, 11, 14, 14, 14] ++
  [16, 15, 10, 17, 15, 13, 14, 16, 14, 16, 15, 14, 2, 5, 9, 5] ++
  [9]

/-- R122, R210: the full dot count of a glyph. -/
def dotCount (g : Glyph) : Nat := dotCounts.getD g.toNat 0

/-! ### Symbols -/

/-- The four places of a symbol. -/
def Symbol.places (y : Symbol) : List Glyph := [y.p0, y.p1, y.p2, y.p3]

/-- R77: a symbol's letters without its padding. -/
def Symbol.letters (y : Symbol) : List Glyph := y.places.filter (fun g => g != gSpace)

/-- R145: an entry's letters padded with spaces to four places. -/
def entrySymbol (letters : List (Fin 26)) : Symbol :=
  { p0 := (letters.map gLetter).getD 0 0, p1 := (letters.map gLetter).getD 1 0,
    p2 := (letters.map gLetter).getD 2 0, p3 := (letters.map gLetter).getD 3 0 }

/-! ### Numbers -/

/-- The figures of a number below 10,000 without leading zeros; none for 0. -/
def figures (n : Nat) : List Nat :=
  if 1000 ≤ n then [n / 1000 % 10, n / 100 % 10, n / 10 % 10, n % 10]
  else if 100 ≤ n then [n / 100 % 10, n / 10 % 10, n % 10]
  else if 10 ≤ n then [n / 10 % 10, n % 10]
  else if 1 ≤ n then [n]
  else []

/-- A text padded on the left with spaces to n cells. -/
def padLeft (n : Nat) (t : List Glyph) : List Glyph := List.replicate (n - t.length) gSpace ++ t

/-- A text cut or padded on the right with spaces to n cells. -/
def padRight (n : Nat) (t : List Glyph) : List Glyph :=
  t.take n ++ List.replicate (n - t.length) gSpace

/-- The fraction glyph of e eighths, or a space. -/
def fractionCell (e : Nat) : Glyph := if e = 0 then gSpace else gFraction e

/-! ### Terminal texts (R13 to R15) -/

/-- R13: the whole part as a terminal shows it, a single 0 for 0. -/
def wholeText (w : Nat) : List Glyph :=
  if w = 0 then [gDigit 0] else (figures w).map gDigit

/-- R13: a price on a terminal, 5 cells. -/
def priceText (p : Nat) : List Glyph := padLeft 4 (wholeText (p / 8)) ++ [fractionCell (p % 8)]

/-- R153, R154: an optional price, 5 spaces when absent. -/
def priceCells : Option Nat → List Glyph
  | some p => priceText p
  | none => List.replicate 5 gSpace

/-- R14: the "+" and "−" glyphs. -/
def gPlus : Glyph := 46
/-- R14: the "−" glyph. -/
def gMinus : Glyph := 45

/-- R14: a tick on a terminal, 2 cells. -/
def tickText : Tick → List Glyph
  | .plus => [gPlus, gSpace]
  | .minus => [gMinus, gSpace]
  | .zeroPlus => [gDigit 0, gPlus]
  | .zeroMinus => [gDigit 0, gMinus]
  | .noTick => [gSpace, gSpace]

/-- R15: a net change on a terminal, 5 cells. -/
def changeText : Option Int → List Glyph
  | none => List.replicate 5 gSpace
  | some c =>
    if c = 0 then gSpace :: glyphs ['U', 'N', 'C', 'H']
    else padLeft 4 ((if 0 < c then gPlus else gMinus) ::
        (figures (changeMagnitude c / 8)).map gDigit) ++ [fractionCell (changeMagnitude c % 8)]

/-! ### Tape texts (R77 to R83) -/

/-- R78: the volume in a form. -/
def volumeText (form lots : Nat) : List Glyph :=
  if 2 ≤ lots ∧ (form < 2 ∨ 50 ≤ lots) then
    (figures (min lots 9999)).map gDigit ++ glyphs ['S']
  else []

/-- R79: the whole part of a tape price in a form. -/
def tapeWhole (form w : Nat) : List Glyph :=
  if w = 0 then []
  else if form = 0 then (figures w).map gDigit
  else [gDigit (w % 10)]

/-- R79: the price in a form. -/
def tapePrice (form p : Nat) : List Glyph :=
  tapeWhole form (p / 8) ++ (if p % 8 = 0 then [] else [gFraction (p % 8)])

/-- R77: the mark of an OPENING or LATE print. -/
def kindMark : PrintKind → List Glyph
  | .regular => []
  | .opening => glyphs [' ', 'O', 'P', 'D']
  | .late => glyphs [' ', 'S', 'L', 'D']

/-- The two trailing spaces of every tape text. -/
def twoSpaces : List Glyph := [gSpace, gSpace]

/-- A tape text: its characters with one attribute. -/
def withAttr (a : Attr) (t : List Glyph) : List (Glyph × Attr) := t.map (fun g => (g, a))

/-- R77: the text of a print item in a form, NORMAL throughout. -/
def printText (form : Nat) (sym : Symbol) (price lots : Nat) (kind : PrintKind) :
    List (Glyph × Attr) :=
  withAttr .normal (sym.letters ++ [gSpace] ++ volumeText form lots ++ tapePrice form price ++
    kindMark kind ++ twoSpaces)

/-- R82: the text of a cancel item, NOTICE throughout, in full form at every level. -/
def cancelText (sym : Symbol) (price lots : Nat) : List (Glyph × Attr) :=
  withAttr .notice (glyphs ['C', 'X', 'L', ' '] ++ sym.letters ++ [gSpace] ++ volumeText 0 lots ++
    tapePrice 0 price ++ twoSpaces)

/-- R83, R154: the word of a stopped state. -/
def stateWord : TradingState → List Glyph
  | .halted => glyphs ['H', 'A', 'L', 'T', 'E', 'D']
  | .delayed => glyphs ['D', 'E', 'L', 'A', 'Y', 'E', 'D']
  | .closed => glyphs ['C', 'L', 'O', 'S', 'E', 'D']
  | .opened => []

/-- R83: the text of a status item. -/
def statusText (sym : Symbol) (st : TradingState) : List (Glyph × Attr) :=
  withAttr .notice (sym.letters ++ [gSpace] ++ stateWord st ++ twoSpaces)

/-- R72, R83: the notice on entering a level by raise. -/
def raiseNotice : Nat → List (Glyph × Attr)
  | 1 => withAttr .notice (glyphs ['D', 'I', 'G', 'I', 'T', 'S', ' ', 'D', 'E', 'L', 'E', 'T', 'E', 'D']
      ++ twoSpaces)
  | 2 => withAttr .notice (glyphs ['V', 'O', 'L', 'U', 'M', 'E', ' ', 'D', 'E', 'L', 'E', 'T', 'E', 'D']
      ++ twoSpaces)
  | _ => withAttr .notice
      (glyphs ['R', 'E', 'P', 'E', 'A', 'T', 'S', ' ', 'O', 'M', 'I', 'T', 'T', 'E', 'D'] ++ twoSpaces)

/-- R72, R83: the notice on entering a level by lower. -/
def lowerNotice : Nat → List (Glyph × Attr)
  | 0 => withAttr .notice (glyphs ['F', 'U', 'L', 'L', ' ', 'T', 'A', 'P', 'E'] ++ twoSpaces)
  | 1 => withAttr .notice (glyphs ['V', 'O', 'L', 'U', 'M', 'E', ' ', 'R', 'E', 'S', 'U', 'M', 'E', 'D']
      ++ twoSpaces)
  | _ => withAttr .notice
      (glyphs ['R', 'E', 'P', 'E', 'A', 'T', 'S', ' ', 'R', 'E', 'S', 'U', 'M', 'E', 'D'] ++ twoSpaces)

/-- R72: the notice of a level change, nothing when the level stays. -/
def levelNotice (old new : Nat) : List (Glyph × Attr) :=
  if old < new then raiseNotice new else if new < old then lowerNotice new else []

/-- R73, R83: "PRINTS OMITTED". -/
def overflowNotice : List (Glyph × Attr) :=
  withAttr .notice (glyphs ['P', 'R', 'I', 'N', 'T', 'S', ' ', 'O', 'M', 'I', 'T', 'T', 'E', 'D']
    ++ twoSpaces)

end Sys2Proof.Machine
end

