-- ==== Sys2Proof/Machine/Composer.lean ====
section
/-!
DEFINITION. The tape composer of a head: admission, takes, the late-tape level, and the characters
composed into the hold (chapter 4).
-/
namespace Sys2Proof.Machine

/-! ### Admission (R65 to R68) -/

/-- R65 to R68: an item joins the back of the queue and stops the idle timer, or, when 64 items wait,
is refused, counted, and the overflow-notice flag set. -/
def enqueueItem (i : TapeItem) (s : State) : State :=
  if s.composer.printQueue.length < Config.printQueueSize then
    s.onComposer (fun c => { c with printQueue := c.printQueue ++ [i], idleTimer := none })
  else (s.count .tapeRefused).onComposer (fun c => { c with overflow := true })

/-- R63, R65: this station is the head of a ribbon that a mask includes. -/
def hears (mask : Byte) (s : State) : Bool :=
  s.isHead && (match s.straps.ribbon with
    | some r => maskIncludes mask r
    | none => false)

/-- R65, R66: a Print at the composer. -/
def composerPrint (m : PrintMsg) (s : State) : State :=
  if hears m.mask s then
    enqueueItem (.print m.symbol m.price m.lots m.kind m.id s.tickCount) s
  else s

/-- R67: a Status at the composer; OPEN and CLOSED are not admitted. -/
def composerStatus (m : StatusMsg) (s : State) : State :=
  if hears m.mask s && (m.state == .halted || m.state == .delayed) then
    enqueueItem (.status m.symbol m.state) s
  else s

/-- R68: a print item with the cancelled print's origin and serial. -/
def TapeItem.isPrint (id : PrintId) : TapeItem → Bool
  | .print _ _ _ _ id' _ => id' == id
  | .cancel _ _ _ => false
  | .status _ _ => false

/-- R75: the idle timer starts at 0 when the queue becomes empty. -/
def Composer.withQueue (q : List TapeItem) (c : Composer) : Composer :=
  { c with printQueue := q, idleTimer := if q = [] then some 0 else c.idleTimer }

/-- R68: a Cancel at the composer withdraws the oldest print item it names, or is itself admitted. -/
def composerCancel (m : CancelMsg) (s : State) : State :=
  if hears m.mask s then
    if s.composer.printQueue.any (TapeItem.isPrint m.id) then
      s.onComposer (fun c => c.withQueue (c.printQueue.eraseP (TapeItem.isPrint m.id)))
    else enqueueItem (.cancel m.symbol m.price m.lots) s
  else s

/-! ### Room and placement (R69, R84, R85) -/

/-- R69: how many held characters await entry. -/
def awaiting (s : State) : Nat :=
  (s.crawl.hold.filter (fun c => decide (0 < sdiff c.entry s.crawl.stepCount))).length

/-- R69: a set of n characters may be taken now. -/
def roomFor (n : Nat) (s : State) : Bool :=
  decide (awaiting s ≤ 2) && decide (s.crawl.hold.length + n ≤ Config.holdSize)

/-- R85: the entry column of the next character. -/
def entryColumn (t : Col) (next : Option Col) : Col :=
  match next with
  | none => t + 1
  | some e => if 0 < sdiff e (t + 1) then e else t + 1

/-- R84, R85: one character is composed into the hold. -/
def composeChar (s : State) (x : Glyph × Attr) : State :=
  (s.onCrawl (fun c => { c with hold := c.hold ++
      [⟨s.composer.nextIndex, entryColumn s.crawl.stepCount s.composer.nextEntry, x.1, x.2, false⟩] })
    ).onComposer (fun c => { c with
      nextIndex := c.nextIndex + 1
      nextEntry := some (entryColumn s.crawl.stepCount c.nextEntry + 6) })

/-- R84: a set is composed into the hold in order. -/
def composeSet (set : List (Glyph × Attr)) (s : State) : State := set.foldl composeChar s

/-! ### Levels (R72) -/

/-- R72, R76: the level entered, with its pace period staged and a Pace mark requested. -/
def enterLevel (n : Nat) (s : State) : State :=
  requestPace ((s.onComposer (fun c => { c with level := n })).onCrawl
    (fun c => { c with paceLevel := n, staged := some (pacePeriod n) }))

/-! ### Takes (R70 to R76, R80, R81) -/

/-- What the take of a print item would do at a moment: the level entered, whether the print is
omitted as a repeat, whether the overflow notice is composed, and the set. -/
structure PrintSet where
  level    : Nat
  omitted  : Bool
  overflow : Bool
  chars    : List (Glyph × Attr)
deriving DecidableEq, Repr

/-- R80: in form 3 a REGULAR print that the recent-tape list holds is omitted. -/
def isRepeat (level : Nat) (kind : PrintKind) (sym : Symbol) (price : Nat)
    (recent : List (Symbol × Nat)) : Bool :=
  level == 3 && kind == .regular && recent.contains (sym, price)

/-- R70 step 5, R80: the print's own text, empty for an omitted repeat. -/
def printPiece (level : Nat) (c : Composer) (sym : Symbol) (price lots : Nat) (kind : PrintKind) :
    List (Glyph × Attr) :=
  if isRepeat level kind sym price c.recent then [] else printText level sym price lots kind

/-- R73: the overflow notice is composed when its flag is set and the set stays within 48. -/
def noticeFits (level : Nat) (c : Composer) (text : List (Glyph × Attr)) : Bool :=
  c.overflow &&
    decide ((levelNotice c.level level).length + overflowNotice.length + text.length
      ≤ Config.holdSize)

/-- R70 steps 3 to 5: the set of a print item taken with the level stepped to `level`. -/
def printSetAt (level : Nat) (c : Composer) (sym : Symbol) (price lots : Nat) (kind : PrintKind) :
    PrintSet :=
  { level := level
    omitted := isRepeat level kind sym price c.recent
    overflow := noticeFits level c (printPiece level c sym price lots kind)
    chars := levelNotice c.level level ++
      (if noticeFits level c (printPiece level c sym price lots kind) then overflowNotice else []) ++
      printPiece level c sym price lots kind }

/-- R70, R71: the set of a print item that arrived at tick a, taken at tick n. -/
def printSet (n a : TickCount) (c : Composer) (sym : Symbol) (price lots : Nat) (kind : PrintKind) :
    PrintSet :=
  printSetAt (levelAfter c.level (latenessOf n a)) c sym price lots kind

/-- R81: the recent-tape list after a print's text is composed. -/
def recentAfter (sym : Symbol) (price : Nat) (recent : List (Symbol × Nat)) : List (Symbol × Nat) :=
  ((sym, price) :: recent.filter (fun e => e.1 != sym)).take Config.recentSize

/-- R81: a REGULAR or OPENING print composed changes the list; a LATE or omitted one does not. -/
def recentOf (x : PrintSet) (kind : PrintKind) (sym : Symbol) (price : Nat)
    (recent : List (Symbol × Nat)) : List (Symbol × Nat) :=
  if x.omitted || kind == .late then recent else recentAfter sym price recent

/-- R72: the level of a take is entered when it differs from the level in force. -/
def stepLevel (n : Nat) (s : State) : State := if n = s.composer.level then s else enterLevel n s

/-- R70: the take of a print item whose set is x. -/
def makePrintTake (x : PrintSet) (sym : Symbol) (price : Nat) (kind : PrintKind)
    (rest : List TapeItem) (s : State) : State :=
  (composeSet x.chars (stepLevel x.level s)).onComposer (fun c =>
    { c.withQueue rest with
      overflow := c.overflow && !x.overflow
      recent := recentOf x kind sym price c.recent })

/-- R69, R70: the front print item is taken when its set has room. -/
def printTake (s : State) : State :=
  match s.composer.printQueue with
  | .print sym price lots kind _ a :: rest =>
    if s.isHead && roomFor (printSet s.tickCount a s.composer sym price lots kind).chars.length s then
      makePrintTake (printSet s.tickCount a s.composer sym price lots kind) sym price kind rest s
    else s
  | _ => s

/-- R74: the take of a cancel or status item with its text. -/
def takeText (text : List (Glyph × Attr)) (rest : List TapeItem) (s : State) : State :=
  if s.isHead && roomFor text.length s then
    (composeSet text s).onComposer (Composer.withQueue rest)
  else s

/-- R69, R74, R82: the front cancel item is taken when its text has room. -/
def cancelTake (s : State) : State :=
  match s.composer.printQueue with
  | .cancel sym price lots :: rest => takeText (cancelText sym price lots) rest s
  | _ => s

/-- R69, R74, R83: the front status item is taken when its text has room. -/
def statusTake (s : State) : State :=
  match s.composer.printQueue with
  | .status sym st :: rest => takeText (statusText sym st) rest s
  | _ => s

/-! ### Idle decay (R75, R76) -/

/-- R75: the idle timer counts a floor tick, up to 128. -/
def Composer.countIdle (c : Composer) : Composer :=
  match c.idleTimer with
  | some n => if n < 128 then { c with idleTimer := some (n + 1) } else c
  | none => c

/-- R75: at 128 the count starts again at level 0; above level 0 a decay is due and the timer is held
at 128. -/
def Composer.idleExpiry (c : Composer) : Composer :=
  match c.idleTimer with
  | some n => if 128 ≤ n ∧ c.level = 0 then { c with idleTimer := some 0 } else c
  | none => c

/-- R63, R75: the idle timer at a floor tick; the composer of a station that is not a head is
inactive. -/
def idleTick (s : State) : State :=
  if s.isHead then s.onComposer (fun c => c.countIdle.idleExpiry) else s

/-- R75: a decay is due. -/
def decayDue (s : State) : Bool :=
  s.isHead && decide (0 < s.composer.level) &&
    (match s.composer.idleTimer with
      | some n => decide (128 ≤ n)
      | none => false)

/-- R76: a due decay is made when its notice has room. -/
def idleDecay (s : State) : State :=
  if decayDue s && roomFor (lowerNotice (s.composer.level - 1)).length s then
    (composeSet (lowerNotice (s.composer.level - 1)) (enterLevel (s.composer.level - 1) s)).onComposer
      (fun c => { c with idleTimer := some 0 })
  else s

/-! ### The commands -/

/-- PRINT_TAKE (R70; R69, R71 to R73, R77 to R81, R84, R85). -/
def execPrintTake (s : State) : Host.Outcome State Fault Refusal := inService s printTake

/-- CANCEL_TAKE (R74; R69, R82, R84, R85). -/
def execCancelTake (s : State) : Host.Outcome State Fault Refusal := inService s cancelTake

/-- STATUS_TAKE (R74; R69, R83 to R85). -/
def execStatusTake (s : State) : Host.Outcome State Fault Refusal := inService s statusTake

/-- IDLE_TIMER_EXPIRY (R75). -/
def execIdleTimerExpiry (s : State) : Host.Outcome State Fault Refusal :=
  inService s (fun s => if s.isHead then s.onComposer Composer.idleExpiry else s)

/-- IDLE_DECAY (R76). -/
def execIdleDecay (s : State) : Host.Outcome State Fault Refusal := inService s idleDecay

end Sys2Proof.Machine
end

