-- ==== Sys2Proof/Machine/Crawl.lean ====
section
/-!
DEFINITION. The crawl unit: the step count, the tape hold, handoffs, forwarding and removal, Pace
marks and the segment states (chapter 5).
-/
namespace Sys2Proof.Machine

/-! ### The window's edges (R97) -/

/-- The offset in columns; unknown is taken as 0, and no window is then rendered. -/
def State.offsetCols (s : State) : Col :=
  match s.crawl.offset with
  | some o => o.setWidth 24
  | none => 0

/-- R97: R = T − O. -/
def State.rightCol (s : State) : Col := s.crawl.stepCount - s.offsetCols

/-- R97: L = T − O − w + 1. -/
def State.leftCol (s : State) : Col := s.rightCol - BitVec.ofNat 24 s.straps.width + 1

/-- R90: the segment is RUNNING or COASTING: it steps, renders, forwards and removes. -/
def State.moving (s : State) : Bool :=
  s.crawl.segState == .running || s.crawl.segState == .coasting

/-! ### Removal (R108) -/

/-- R103, R108: all six columns of a character lie left of column `left`: E + 5 < L. -/
def TapeChar.passed (left : Col) (c : TapeChar) : Bool := decide (sdiff (c.entry + 5) left < 0)

/-- R108: the held characters that stay: not passed, or not sent (the tail needs no sending). -/
def keptChars (left : Col) (tail : Bool) (hold : List TapeChar) : List TapeChar :=
  hold.filter (fun c => !(c.passed left && (c.sent || tail)))

/-- R108: the removal test. -/
def removePassed (s : State) : State :=
  s.onCrawl (fun c => { c with hold := keptChars s.leftCol s.isTail c.hold })

/-! ### Forwarding (R105 to R107) -/

/-- R106: from a list of held characters, those whose indices run on from i and are unsent, n at
most. -/
def runFrom : Nat → Col → List TapeChar → List TapeChar
  | 0, _, _ => []
  | _ + 1, _, [] => []
  | n + 1, i, c :: cs => if c.sent = false ∧ c.index = i then c :: runFrom n (i + 1) cs else []

/-- R105, R106: the batch that starts with the unsent character of least index, when it is due. -/
def batchOf (left : Col) (hold : List TapeChar) : List TapeChar :=
  match hold.dropWhile (fun c => c.sent) with
  | [] => []
  | c :: cs => if sdiff c.entry left < 24 then runFrom 4 c.index (c :: cs) else []

/-- R105: the batch due now; the tail forms none (R109). -/
def dueBatch (s : State) : List TapeChar :=
  if s.isTail then [] else batchOf s.leftCol s.crawl.hold

/-- R106: a batch's characters are marked sent. -/
def markSent (batch : List TapeChar) (s : State) : State :=
  s.onCrawl (fun c => { c with hold := c.hold.map (fun x =>
    if batch.any (fun b => b.index == x.index) then { x with sent := true } else x) })

/-- R101, R106: the offset O + w put in a Handoff; a sum over 65,535 is a free value (log entry 6). -/
def handoffOffset (o : Option (BitVec 16)) (width : Nat) : BitVec 16 :=
  match o with
  | some o =>
    if o.toNat + width < 65536 then BitVec.ofNat 16 (o.toNat + width)
    else Config.handoffOffsetOverflow (o.toNat + width)
  | none => BitVec.ofNat 16 width

/-- R106: the Handoff frame of a batch joins the tape queue, addressed to the next segment. Each character
keeps the glyph code it is held with, 49 to 63 too (log entry 31). -/
def queueHandoff (batch : List TapeChar) (s : State) : State :=
  match s.straps.ribbon, batch with
  | some r, b :: _ =>
    s.appendTape (segmentAddress r (s.straps.segment + 1))
      (.handoff (handoffOffset s.crawl.offset s.straps.width) b.index
        (batch.map (fun c => ⟨c.entry, c.glyph, c.attr⟩)))
  | _, _ => s

/-- R106: one batch is handed on: queued (R107: not at a listen-only station), marked sent, and the
removal test made. -/
def sendBatch (batch : List TapeChar) (s : State) : State :=
  removePassed (markSent batch (if s.listenOnly then s else queueHandoff batch s))

/-- R105 to R108: batches are handed on until no unsent character is due or the tape queue is full.
The first argument bounds the number of batches; a hold has at most 48 characters. -/
def forward : Nat → State → State
  | 0, s => s
  | n + 1, s =>
    match dueBatch s with
    | [] => s
    | c :: cs =>
      if s.listenOnly || decide (s.line.tapeQueue.length < Config.tapeQueueSize) then
        forward n (sendBatch (c :: cs) s)
      else s

/-- R105, R108: the removal test, then the due test. -/
def judgeHold (s : State) : State := forward Config.holdSize (removePassed s)

/-! ### Crawl steps (R94 to R96) -/

/-- R95, R96: the advance of one crawl step; a head has no slew. -/
def Crawl.advance (c : Crawl) : Crawl :=
  if c.slew = 0 then { c with stepCount := c.stepCount + 1 }
  else if c.phase + 1 < 4 then { c with stepCount := c.stepCount + 1, phase := c.phase + 1 }
  else if 0 < c.slew then { c with stepCount := c.stepCount + 2, slew := c.slew - 1, phase := 0 }
  else { c with slew := c.slew + 1, phase := 0 }

/-- R94: at a match the counter returns to 0 and a staged period takes effect. -/
def Crawl.pass (c : Crawl) : Crawl :=
  { c with counter := 0, period := c.staged.getD c.period, staged := none }

/-- R110: a head requests a Pace mark when its T has reached a multiple of 256. -/
def paceAtMultiple (s : State) : State :=
  if s.isHead && s.crawl.stepCount.toNat % 256 == 0 then requestPace s else s

/-- R95: a crawl step of a moving segment. -/
def crawlStep (s : State) : State :=
  if s.moving then
    paceAtMultiple (judgeHold (s.onCrawl (fun c =>
      if s.isHead then { c.pass with stepCount := c.stepCount + 1 } else c.pass.advance)))
  else s

/-- R94: one timer clock of the pace timer, which runs in RUNNING and COASTING: the 16-bit counter
increases by 1, and a match with the period in force is a crawl step. -/
def timerClock (s : State) : State :=
  if s.moving then
    if (s.crawl.counter + 1) % 65536 = s.crawl.period then crawlStep s
    else s.onCrawl (fun c => { c with counter := (c.counter + 1) % 65536 })
  else s

/-! ### States (R91 to R93) -/

/-- R91: a segment enters RUNNING from WAITING; R104: the characters it holds are judged at once. -/
def enterRunning (s : State) : State :=
  judgeHold (s.onCrawl (fun c =>
    { c with segState := .running, counter := 0, period := pacePeriod c.paceLevel, staged := none,
             silence := some 0 }))

/-- R93: a segment enters WAITING from COASTING. -/
def Crawl.fallSilent (c : Crawl) : Crawl :=
  { c with segState := .waiting, hold := [], slew := 0, silence := none }

/-- R92: 128 ticks of silence in RUNNING: the segment coasts. -/
def Crawl.coastingExpiry (c : Crawl) : Crawl :=
  match c.segState, c.silence with
  | .running, some n => if 128 ≤ n then { c with segState := .coasting } else c
  | _, _ => c

/-- R92, R93: 512 ticks of silence in COASTING: the segment enters WAITING. -/
def Crawl.waitingExpiry (c : Crawl) : Crawl :=
  match c.segState, c.silence with
  | .coasting, some n => if 512 ≤ n then c.fallSilent else c
  | _, _ => c

/-- R92: the silence timer counts a floor tick, up to 512. -/
def Crawl.countSilence (c : Crawl) : Crawl :=
  match c.silence with
  | some n => if n < 512 then { c with silence := some (n + 1) } else c
  | none => c

/-- R92, R93: the silence timer at a floor tick. -/
def Crawl.silenceTick (c : Crawl) : Crawl := (c.countSilence.waitingExpiry).coastingExpiry

/-! ### Handoffs (R99 to R104) -/

/-- R102: index order: a character's index lies below i. -/
def TapeChar.below (i : Col) (c : TapeChar) : Bool := decide (sdiff c.index i < 0)

/-- R102: the held characters below index i, in order. -/
def holdBelow (i : Col) (hold : List TapeChar) : List TapeChar := hold.takeWhile (TapeChar.below i)

/-- R102: the held characters from the first not below index i. -/
def holdAbove (i : Col) (hold : List TapeChar) : List TapeChar := hold.dropWhile (TapeChar.below i)

/-- R99, R102: the entry columns of two neighbours lie at least 6 apart. -/
def farEnough (e1 e2 : Col) : Bool := decide (6 ≤ sdiff e2 e1)

/-- R102: a character's entry column fits between its predecessor's and its successor's. -/
def inOrder (c : TapeChar) (hold : List TapeChar) : Bool :=
  (match (holdBelow c.index hold).getLast? with
    | some p => farEnough p.entry c.entry
    | none => true) &&
  (match (holdAbove c.index hold).head? with
    | some q => farEnough c.entry q.entry
    | none => true)

/-- R102: a character inserted at its place. -/
def insertChar (c : TapeChar) (hold : List TapeChar) : List TapeChar :=
  holdBelow c.index hold ++ c :: holdAbove c.index hold

/-- R102: a duplicate, a disordered character, or one that finds 48 held is dropped. -/
def dropsChar (c : TapeChar) (hold : List TapeChar) : Bool :=
  hold.any (fun k => k.index == c.index) || !inOrder c hold ||
    decide (Config.holdSize ≤ hold.length)

/-- R102, R103: a character of a Handoff is tested and placed. -/
def placeChar (c : TapeChar) (s : State) : State :=
  if dropsChar c s.crawl.hold then s.count .charsDropped
  else if s.moving && c.passed s.leftCol then
    if s.isTail then s.count .lateChars
    else (s.count .lateChars).onCrawl (fun k => { k with hold := insertChar c k.hold })
  else s.onCrawl (fun k => { k with hold := insertChar c k.hold })

/-- R100, R102: a Handoff's characters are placed one at a time in index order. -/
def placeChars : Col → List HandoffChar → State → State
  | _, [], s => s
  | i, c :: cs, s => placeChars (i + 1) cs (placeChar ⟨i, c.entry, c.glyph, c.attr, false⟩ s)

/-- R91, R101: a Handoff's offset field becomes the segment's offset. -/
def takeOffset (o : BitVec 16) (s : State) : State :=
  match s.crawl.offset with
  | none =>
    if s.crawl.segState = .waiting ∧ s.crawl.paceHeard then
      enterRunning (s.onCrawl (fun c => { c with offset := some o }))
    else s.onCrawl (fun c => { c with offset := some o })
  | some o' =>
    if o' = o then s
    else (s.count .paceJumps).onCrawl (fun c => { c with offset := some o })

/-- R105: the due test that follows the placements, made by a moving segment after every taken Handoff
(log entry 11). -/
def forwardIfMoving (s : State) : State := if s.moving then forward Config.holdSize s else s

/-- R100 to R104: a Handoff taken by a segment other than the head. The due test follows the last
placement, and is made also where every character has been dropped (log entry 11). -/
def takeHandoff (m : HandoffMsg) (s : State) : State :=
  forwardIfMoving (placeChars m.first m.chars (takeOffset m.offset s))

/-! ### Pace marks (R111 to R114) -/

/-- R113: the correction of the step count against the head's. The phase starts again at 0 with every
setting of the slew (R96), that to 0 among them. -/
def correctSteps (head : Col) (s : State) : State :=
  if -1 ≤ sdiff head s.crawl.stepCount ∧ sdiff head s.crawl.stepCount ≤ 1 then
    s.onCrawl (fun c => { c with slew := 0, phase := 0 })
  else if -48 ≤ sdiff head s.crawl.stepCount ∧ sdiff head s.crawl.stepCount ≤ 48 then
    s.onCrawl (fun c => { c with slew := sdiff head c.stepCount, phase := 0 })
  else
    judgeHold ((s.count .paceJumps).onCrawl (fun c => { c with stepCount := head, slew := 0, phase := 0 }))

/-- R112: what every taken Pace does to the crawl unit. -/
def Crawl.hearPace (level : Nat) (c : Crawl) : Crawl :=
  { c with paceHeard := true, paceLevel := level, staged := some (pacePeriod level) }

/-- R114: T and the slew set from a Pace taken in WAITING, where no slew is in progress (the phase: log
entry 33). -/
def Crawl.setSteps (steps : Col) (c : Crawl) : Crawl := { c with stepCount := steps, slew := 0 }

/-- R112 to R114: a Pace for its ribbon taken by a segment other than the head. -/
def takePace (m : PaceMsg) (s : State) : State :=
  match s.crawl.segState with
  | .dark => s
  | .waiting =>
    if s.crawl.offset.isSome then
      enterRunning (s.onCrawl (fun c => (c.hearPace m.level).setSteps m.steps))
    else s.onCrawl (fun c => (c.hearPace m.level).setSteps m.steps)
  | .running =>
    correctSteps m.steps (s.onCrawl (fun c => { c.hearPace m.level with silence := some 0 }))
  | .coasting =>
    correctSteps m.steps (s.onCrawl (fun c =>
      { c.hearPace m.level with silence := some 0, segState := .running }))

/-- R111: the Pace is taken by a segment, other than the head, of its ribbon. -/
def followsPace (r : Fin 4) (s : State) : Bool :=
  s.straps.ribbon == some r && s.straps.segment != 0

/-- R111: a Pace at the crawl unit. -/
def crawlPace (m : PaceMsg) (s : State) : State := if followsPace m.ribbon s then takePace m s else s

/-! ### The commands -/

/-- CRAWL_STEP (R95; R94, R96, R105 to R110). -/
def execCrawlStep (s : State) : Host.Outcome State Fault Refusal := inService s crawlStep

/-- PENDING_PACE_QUEUED (R110). -/
def execPendingPaceQueued (s : State) : Host.Outcome State Fault Refusal :=
  inService s meetPendingPace

/-- SILENCE_COASTING (R92). -/
def execSilenceCoasting (s : State) : Host.Outcome State Fault Refusal :=
  inService s (fun s => s.onCrawl Crawl.coastingExpiry)

/-- SILENCE_WAITING (R93; R92). -/
def execSilenceWaiting (s : State) : Host.Outcome State Fault Refusal :=
  inService s (fun s => s.onCrawl Crawl.waitingExpiry)

end Sys2Proof.Machine
end

