-- ==== Sys2Proof/Machine/Table.lean ====
section
/-!
DEFINITION. The quote table's and the board cells' answers to messages: chapters 2 and 3.
-/
namespace Sys2Proof.Machine

/-! ### Stencils (R54 to R60) -/

/-- R54: the bits of a pattern at positions 1, 2, 3 and on; true is lit. -/
def Pattern.bits : Pattern → List Bool
  | .steady => []
  | .rise => [false, true, false, true, false, true]
  | .fall => [false, false, true, false, false, true, false, false, true]
  | .halt => [true, true, true, true, true, false, false, false, false, false]
  | .delay => [true, true, true, true, true, true, false, false]

/-- R54: a pattern's length. -/
def Pattern.length (p : Pattern) : Nat := p.bits.length

/-- R54: a state pattern repeats. -/
def Pattern.repeating : Pattern → Bool
  | .halt => true
  | .delay => true
  | .steady => false
  | .rise => false
  | .fall => false

/-- R54: a pattern is loaded at position 0, replacing what the cell held. -/
def CellRecord.load (p : Pattern) (c : CellRecord) : CellRecord :=
  { c with pattern := p, position := 0, repeats := p.repeating }

/-- R54: the cell's pattern is stopped. -/
def CellRecord.stop (c : CellRecord) : CellRecord :=
  { c with pattern := .steady, position := 0, repeats := false }

/-- R55: an exhausted pattern is reloaded at position 1 when it repeats and becomes NONE when not. -/
def CellRecord.patternEnd (c : CellRecord) : CellRecord :=
  if c.repeats then { c with position := 1 } else c.stop

/-- R55: the shift of one floor tick. -/
def CellRecord.shift (c : CellRecord) : CellRecord :=
  if c.pattern = .steady then c
  else if c.pattern.length < c.position + 1 then c.patternEnd
  else { c with position := c.position + 1 }

/-- R53: the bit shown: lit for NONE and for a pattern not yet begun. -/
def CellRecord.lit (c : CellRecord) : Bool :=
  match c.position with
  | 0 => true
  | n + 1 => c.pattern.bits.getD n true

/-- R58: a change of the record's state reaches a cell. -/
def CellRecord.onState (st : TradingState) (c : CellRecord) : CellRecord :=
  match st with
  | .halted => c.load .halt
  | .delayed => c.load .delay
  | .opened => c.stop
  | .closed => c.stop

/-- R57: a print's tick, with the state after the print, reaches a cell. -/
def CellRecord.onPrint (tick : Tick) (st : TradingState) (c : CellRecord) : CellRecord :=
  if st = .halted ∨ st = .delayed then c
  else match tick with
    | .plus => c.load .rise
    | .minus => c.load .fall
    | .zeroPlus => c
    | .zeroMinus => c
    | .noTick => c

/-! ### Prints (R27 to R30) -/

/-- R29: the state after an accepted print of a kind. -/
def stateAfterPrint (kind : PrintKind) (st : TradingState) : TradingState :=
  match kind, st with
  | .opening, .delayed => .opened
  | .opening, .closed => .opened
  | _, st => st

/-- R28, R29: a record after a REGULAR or OPENING print. -/
def QuoteRecord.afterPrint (m : PrintMsg) (r : QuoteRecord) : QuoteRecord :=
  { r with
    last := some ⟨m.price, m.lots, newTick m.price r.last⟩
    setter := some m.id
    prior := r.last
    state := stateAfterPrint m.kind r.state
    suspect := false
    age := 0 }

/-- R30, R57, R59: what a linked cell does at the hand-over of a print: the change of state first,
then the print's result. -/
def CellRecord.afterPrint (old : TradingState) (new : TradingState) (tick : Tick) (c : CellRecord) :
    CellRecord :=
  (if old = new then c else c.onState new).onPrint tick new

/-- R27 to R30: a Print at the table and the cells. The hand-over to the inquiry unit is
`firePrint` of Machine/Inquiry.lean. -/
def tablePrint (m : PrintMsg) (s : State) : State :=
  match findRecord m.symbol s.table with
  | none => s
  | some r =>
    if m.kind = .late then s
    else (s.onRecord m.symbol (QuoteRecord.afterPrint m)).onCells r.pins
      (CellRecord.afterPrint r.state (stateAfterPrint m.kind r.state) (newTick m.price r.last))

/-! ### Quotes, status, cancels (R31 to R34) -/

/-- R31: a Quote at the table. -/
def tableQuote (m : QuoteMsg) (s : State) : State :=
  s.onRecord m.symbol (fun r => { r with bid := m.bid, ask := m.ask })

/-- R32: a record's state is set, and a change is handed to the cells in its cell pins. -/
def setRecordState (sym : Symbol) (st : TradingState) (s : State) : State :=
  match findRecord sym s.table with
  | none => s
  | some r =>
    if r.state = st then s
    else (s.onRecord sym (fun q => { q with state := st })).onCells r.pins (CellRecord.onState st)

/-- R33, R34: a record after a Cancel: restored from its prior group, made suspect, or left. -/
def QuoteRecord.afterCancel (id : PrintId) (r : QuoteRecord) : QuoteRecord :=
  if r.setter = some id then
    match r.prior with
    | some p => { r with last := some p, prior := none, setter := none }
    | none => { r with suspect := true }
  else r

/-- R33, R34: a Cancel at the table. -/
def tableCancel (m : CancelMsg) (s : State) : State :=
  s.onRecord m.symbol (QuoteRecord.afterCancel m.id)

/-! ### Plans (R36 to R38, R60) -/

/-- R36, R37: a Plan's reference, when present, becomes the record's. -/
def QuoteRecord.withReference (ref : Option Nat) (r : QuoteRecord) : QuoteRecord :=
  match ref with
  | some p => { r with reference := some p }
  | none => r

/-- R37 step 1: the cell leaves the cell pins of the record its old link names. -/
def unlinkTable (c : Fin 16) (old : Option Symbol) (table : List QuoteRecord) : List QuoteRecord :=
  match old with
  | some sym => updateRecord sym (QuoteRecord.dropPin c) table
  | none => table

/-- R36, R37: the table after a Plan for cell c, whose link was `old`. -/
def planTable (m : PlanMsg) (old : Option Symbol) (table : List QuoteRecord) : List QuoteRecord :=
  if m.symbol = old then
    match m.symbol with
    | some sym => updateRecord sym (QuoteRecord.withReference m.reference) table
    | none => table
  else
    match m.symbol with
    | none => unlinkTable m.cell old table
    | some sym =>
      updateRecord sym (fun r => (r.addPin m.cell).withReference m.reference)
        (ensureHeld sym (unlinkTable m.cell old table))

/-- R60: the pattern a Plan leaves on its cell, by the linked record's state. -/
def CellRecord.onPlan (link : Option Symbol) (st : Option TradingState) (c : CellRecord) : CellRecord :=
  match st with
  | some .halted => { c.load .halt with link := link }
  | some .delayed => { c.load .delay with link := link }
  | some .opened => { c.stop with link := link }
  | some .closed => { c.stop with link := link }
  | none => { c.stop with link := link }

/-- The state of the record a link names. -/
def linkedState (link : Option Symbol) (table : List QuoteRecord) : Option TradingState :=
  match link with
  | some sym => (findRecord sym table).map QuoteRecord.state
  | none => none

/-- The plan link of cell c. -/
def State.linkOf (s : State) (c : Fin 16) : Option Symbol := (s.cell c).bind CellRecord.link

/-- R36 to R38: a Plan at the table and its cell. -/
def tablePlan (m : PlanMsg) (s : State) : State :=
  (s.withTable (planTable m (s.linkOf m.cell) s.table)).onCells [m.cell]
    (CellRecord.onPlan m.symbol
      (linkedState m.symbol (planTable m (s.linkOf m.cell) s.table)))

/-! ### Answers (R39, R40) -/

/-- R39: a record written from an Answer, but for its state. -/
def QuoteRecord.mergeAnswer (m : AnswerMsg) (r : QuoteRecord) : QuoteRecord :=
  { r with
    reference := m.reference
    bid := m.bid
    ask := m.ask
    last := match r.last with
      | some l => some l
      | none => m.last }

/-- R24, R26: a terminal begins to show a record: one reference more, and the front of the recency
list. -/
def beginShowing (sym : Symbol) (s : State) : State :=
  s.withTable (moveToFront sym (updateRecord sym QuoteRecord.addRef s.table))

/-- R24: a terminal stops showing, or stops watching, a record. -/
def releaseRecord (sym : Symbol) (s : State) : State := s.onRecord sym QuoteRecord.dropRef

/-- R39, R40: a taken Answer at the table: find or install, write, hand a change of state to the
cells, and pin for the terminal. -/
def tableAnswer (m : AnswerMsg) (s : State) : State :=
  beginShowing m.symbol
    (setRecordState m.symbol m.state
      ((s.withTable (ensureHeld m.symbol s.table)).onRecord m.symbol (QuoteRecord.mergeAnswer m)))

/-! ### The floor tick (R18, R55) -/

/-- R18: a record's age at a floor tick. -/
def QuoteRecord.tick (r : QuoteRecord) : QuoteRecord :=
  if r.age < 65535 then { r with age := r.age + 1 } else r

end Sys2Proof.Machine
end

