-- ==== Sys2Proof/Machine/Inquiry.lean ====
section
/-!
DEFINITION. The inquiry unit: asks, answers, watch lists, limits and alerts (chapter 8), and the
beeper requests they make (R141).
-/
namespace Sys2Proof.Machine

/-! ### Beeps and messages (R141, R142) -/

/-- R141: a beep request of n floor ticks. -/
def Terminal.beep (n : Nat) (m : Terminal) : Terminal :=
  { m with beeper := max m.beeper n, beeperOn := true }

/-- R141: a reject beep at terminal t. -/
def rejectBeep (t : Fin 4) (s : State) : State := s.onTerm t (Terminal.beep 2)

/-- R142: a message is set, replacing any held, with its timer at 40. -/
def Terminal.say (msg : Message) (m : Terminal) : Terminal :=
  { m with message := some msg, messageTimer := 40 }

/-- R142: the message is cleared with its timer. -/
def Terminal.hush (m : Terminal) : Terminal := { m with message := none, messageTimer := 0 }

/-! ### Firing (R172, R173) -/

/-- R172: a new last crosses a limit. -/
def Limit.crossedBy (p : Nat) (l : Limit) : Bool :=
  match l.direction with
  | .above => decide (l.price ≤ p)
  | .below => decide (p ≤ l.price)

/-- R173: an alert joins a list, the oldest of 4 being dropped first. -/
def addAlert (a : Alert) (as : List Alert) : List Alert :=
  (if Config.alertSize ≤ as.length then as.tail else as) ++ [a]

/-- The armed limit a terminal holds on a symbol. -/
def Terminal.armedLimit (sym : Symbol) (m : Terminal) : Option Limit :=
  (m.watch.find? (fun e => e.symbol == sym)).bind WatchEntry.limit

/-- R172: a terminal after its limit on a symbol fires at price p. -/
def Terminal.fire (sym : Symbol) (p : Nat) (d : Direction) (m : Terminal) : Terminal :=
  Terminal.beep 8
    { m with
      watch := m.watch.map (fun e => if e.symbol = sym then { e with limit := none } else e)
      alerts := addAlert ⟨sym, p, d⟩ m.alerts }

/-- R172, R173: the test of one terminal's watch entry against a print's price. -/
def fireAt (sym : Symbol) (p : Nat) (t : Fin 4) (s : State) : State :=
  match (s.term t).armedLimit sym with
  | none => s
  | some l =>
    if s.active t && l.crossedBy p then
      (if Config.alertSize ≤ (s.term t).alerts.length then s.count .keysAlertsDropped else s).onTerm t
        (Terminal.fire sym p l.direction)
    else s

/-- R172: every terminal's test. -/
def fireAll (sym : Symbol) (p : Nat) (s : State) : State :=
  fireAt sym p 3 (fireAt sym p 2 (fireAt sym p 1 (fireAt sym p 0 s)))

/-- R30, R172: an accepted REGULAR or OPENING print for a held symbol is handed to the inquiry
unit. -/
def firePrint (m : PrintMsg) (s : State) : State :=
  match findRecord m.symbol s.table with
  | none => s
  | some _ => if m.kind = .late then s else fireAll m.symbol m.price s

/-! ### Asks (R157 to R160) -/

/-- R157, R158: terminal t opens an ask for a symbol. -/
def openAsk (t : Fin 4) (sym : Symbol) (s : State) : State :=
  ((s.withAskTag (s.askTag + 1)).appendGeneral 0 (.ask t (s.askTag + 1) sym)).onTerm t
    (fun m => { m with
      ask := some ⟨s.askTag + 1, sym, s.tickCount + 16⟩
      state := .asking })

/-- R159, R160, R162: the outstanding ask ends, and its Ask frame is withdrawn unless it is on the
line. -/
def endAsk (t : Fin 4) (s : State) : State :=
  match (s.term t).ask with
  | none => s
  | some a => (s.withdraw (TxFrame.isAskOf t a.tag)).onTerm t (fun m => { m with ask := none })

/-- R147: the terminal leaves ASKING for IDLE: entry emptied, typeahead discarded. -/
def Terminal.dropAsk (m : Terminal) : Terminal :=
  { m with state := .idle, entry := [], keyQueue := [] }

/-- R160: CLEAR in ASKING abandons the ask. -/
def abandonAsk (t : Fin 4) (s : State) : State := (endAsk t s).onTerm t Terminal.dropAsk

/-- R159: the deadline of terminal t's outstanding ask has come. -/
def askDue (t : Fin 4) (s : State) : Bool :=
  match (s.term t).ask with
  | some a => a.deadline == s.tickCount
  | none => false

/-- R159: the ask times out at its deadline tick. -/
def timeoutAsk (t : Fin 4) (s : State) : State :=
  if askDue t s then
    ((endAsk t s).count .asksTimedOut).onTerm t (fun m => m.dropAsk.say .noQuote)
  else s

/-! ### Answering (R163, R164, R166) -/

/-- R163: the station answers an Ask for a symbol one of its cells pins. -/
def answers (sym : Symbol) (s : State) : Bool :=
  match findRecord sym s.table with
  | some r => !s.listenOnly && !r.pins.isEmpty
  | none => false

/-- R163, R164: a taken Ask from station `origin`. -/
def takeAsk (origin : Byte) (m : AskMsg) (s : State) : State :=
  if answers m.symbol s then
    if s.line.generalQueue.any (TxFrame.isAnswerTo origin m.terminal m.tag) then s
    else if s.generalFull then s.count .framesAbandoned
    else s.appendGeneral origin (.answer m.terminal m.tag m.symbol)
  else s

/-- R166: a snooped Answer to station `dest` withdraws this station's queued Answer with its ask
key. -/
def suppress (dest : Byte) (m : AnswerMsg) (s : State) : State :=
  s.withdraw (TxFrame.isAnswerTo dest m.terminal m.tag)

/-! ### Watch lists and limits (R168 to R171) -/

/-- The terminal watches a symbol. -/
def Terminal.watches (sym : Symbol) (m : Terminal) : Bool := m.watch.any (fun e => e.symbol == sym)

/-- R168: an entry joins the back of a terminal's list and gives its record one reference. -/
def addWatch (t : Fin 4) (e : WatchEntry) (s : State) : State :=
  (s.onRecord e.symbol QuoteRecord.addRef).onTerm t (fun m => { m with watch := m.watch ++ [e] })

/-- R169: WATCH for the shown symbol. -/
def watchShown (t : Fin 4) (sym : Symbol) (s : State) : State :=
  if (s.term t).watches sym then rejectBeep t s
  else if Config.watchSize ≤ (s.term t).watch.length then rejectBeep t s
  else addWatch t ⟨sym, none⟩ s

/-- R170: UNWATCH for the shown symbol. -/
def unwatchShown (t : Fin 4) (sym : Symbol) (s : State) : State :=
  if (s.term t).watches sym then
    (releaseRecord sym s).onTerm t
      (fun m => { m with watch := m.watch.filter (fun e => e.symbol != sym) })
  else rejectBeep t s

/-- R171: the limit armed at price p against a last. -/
def limitAgainst (p last : Nat) : Limit := ⟨p, if last < p then .above else .below⟩

/-- R171: a terminal with the limit of its entry for a symbol set. -/
def Terminal.arm (sym : Symbol) (l : Limit) (m : Terminal) : Terminal :=
  { m with watch := m.watch.map (fun e => if e.symbol = sym then { e with limit := some l } else e) }

/-- R171: the commit of price p for the shown symbol. -/
def commitLimit (t : Fin 4) (sym : Symbol) (p : Nat) (s : State) : State :=
  match (findRecord sym s.table).bind QuoteRecord.last with
  | none => rejectBeep t s
  | some l =>
    if p = l.price then rejectBeep t s
    else if (s.term t).watches sym then
      s.onTerm t (Terminal.arm sym (limitAgainst p l.price))
    else if Config.watchSize ≤ (s.term t).watch.length then rejectBeep t s
    else addWatch t ⟨sym, some (limitAgainst p l.price)⟩ s

end Sys2Proof.Machine
end

