-- ==== Sys2Proof/Machine/Terminals.lean ====
section
/-!
DEFINITION. The terminal unit: the keys' effects in each state, the key queue, the scan, and the
display lines (chapter 7).
-/
namespace Sys2Proof.Machine

/-! ### Keys in IDLE and KEYING (R144 to R146) -/

/-- R144: a key taken in IDLE; every key but a letter is ignored. -/
def keyIdle (t : Fin 4) (k : Key) (s : State) : State :=
  match k with
  | .letter l => s.onTerm t (fun m => { m with entry := [l], state := .keying })
  | _ => s

/-- R146: the shown record of a terminal becomes that of a held symbol. -/
def showEntry (t : Fin 4) (sym : Symbol) (s : State) : State :=
  (beginShowing sym s).onTerm t
    (fun m => { m with shown := some sym, entry := [], state := .showing })

/-- R146: QUOTE in KEYING, its conditions tested from the top. -/
def quoteEntry (t : Fin 4) (sym : Symbol) (s : State) : State :=
  if (findRecord sym s.table).isSome then showEntry t sym s
  else if s.listenOnly then s.onTerm t (Terminal.say .noQuote)
  else if s.generalFull then s.onTerm t (Terminal.say .lineBusy)
  else openAsk t sym s

/-- R145: an entry after RUB; IDLE when that leaves it empty. -/
def Terminal.rubLetter (m : Terminal) : Terminal :=
  { m with entry := m.entry.dropLast, state := if m.entry.dropLast = [] then .idle else .keying }

/-- R145: a key taken in KEYING. -/
def keyKeying (t : Fin 4) (k : Key) (s : State) : State :=
  match k with
  | .letter l =>
    if (s.term t).entry.length < 4 then s.onTerm t (fun m => { m with entry := m.entry ++ [l] })
    else rejectBeep t s
  | .rub => s.onTerm t Terminal.rubLetter
  | .clear => s.onTerm t (fun m => { m with entry := [], state := .idle })
  | .quote => quoteEntry t (entrySymbol (s.term t).entry) s
  | _ => rejectBeep t s

/-! ### Keys in SHOWING (R148 to R150) -/

/-- R148, R24: the terminal stops showing its record. -/
def stopShowing (t : Fin 4) (s : State) : State :=
  match (s.term t).shown with
  | some sym => (releaseRecord sym s).onTerm t (fun m => { m with shown := none })
  | none => s

/-- R150: the target of NEXT from a shown symbol: the entry after it, else the first. -/
def nextTarget (sym : Symbol) (watch : List WatchEntry) : Option Symbol :=
  match watch.dropWhile (fun e => e.symbol != sym) with
  | _ :: e :: _ => some e.symbol
  | _ => watch.head?.map WatchEntry.symbol

/-- R150: NEXT in SHOWING. -/
def nextShown (t : Fin 4) (sym : Symbol) (s : State) : State :=
  match nextTarget sym (s.term t).watch with
  | none => rejectBeep t s
  | some target =>
    if target = sym then s
    else (beginShowing target (releaseRecord sym s)).onTerm t
      (fun m => { m with shown := some target })

/-- R148 to R150: a key taken in SHOWING, with the shown symbol. -/
def keyShowing (t : Fin 4) (k : Key) (sym : Symbol) (s : State) : State :=
  match k with
  | .letter l => (stopShowing t s).onTerm t (fun m => { m with entry := [l], state := .keying })
  | .clear => (stopShowing t s).onTerm t (fun m => { m with entry := [], state := .idle })
  | .quote => s
  | .watch => watchShown t sym s
  | .unwatch => unwatchShown t sym s
  | .next => nextShown t sym s
  | .limit =>
    s.onTerm t (fun m => { m with whole := [], fracMark := false, eighths := none,
                                  state := .limitEntry })
  | _ => rejectBeep t s

/-! ### Keys in LIMIT ENTRY (R151, R152, R16) -/

/-- The limit entry emptied and the terminal back in SHOWING. -/
def Terminal.leaveLimit (m : Terminal) : Terminal :=
  { m with whole := [], fracMark := false, eighths := none, state := .showing }

/-- R16: the value W × 8 + e of a limit entry. -/
def Terminal.limitValue (m : Terminal) : Nat :=
  m.whole.foldl (fun w d => 10 * w + d.val) 0 * 8 +
    (match m.eighths with
      | some e => e.val
      | none => 0)

/-- R151: a digit in LIMIT ENTRY. -/
def limitDigit (t : Fin 4) (d : Fin 10) (s : State) : State :=
  if (s.term t).eighths.isSome then rejectBeep t s
  else if (s.term t).fracMark then
    if h : d.val < 8 then s.onTerm t (fun m => { m with eighths := some ⟨d.val, h⟩ })
    else rejectBeep t s
  else if (s.term t).whole.length < 4 then s.onTerm t (fun m => { m with whole := m.whole ++ [d] })
  else rejectBeep t s

/-- R151: RUB in LIMIT ENTRY. -/
def limitRub (t : Fin 4) (s : State) : State :=
  if (s.term t).eighths.isSome then s.onTerm t (fun m => { m with eighths := none })
  else if (s.term t).fracMark then s.onTerm t (fun m => { m with fracMark := false })
  else if (s.term t).whole = [] then rejectBeep t s
  else s.onTerm t (fun m => { m with whole := m.whole.dropLast })

/-- R16, R152: QUOTE in LIMIT ENTRY. -/
def limitQuote (t : Fin 4) (sym : Symbol) (s : State) : State :=
  if priceValid (s.term t).limitValue then
    (commitLimit t sym (s.term t).limitValue s).onTerm t Terminal.leaveLimit
  else rejectBeep t s

/-- R151, R152: a key taken in LIMIT ENTRY, with the shown symbol. -/
def keyLimitEntry (t : Fin 4) (k : Key) (sym : Symbol) (s : State) : State :=
  match k with
  | .digit d => limitDigit t d s
  | .fraction =>
    if (s.term t).fracMark then rejectBeep t s
    else s.onTerm t (fun m => { m with fracMark := true })
  | .rub => limitRub t s
  | .quote => limitQuote t sym s
  | .clear => s.onTerm t Terminal.leaveLimit
  | _ => rejectBeep t s

/-! ### A key taken (R139, R140, R143) -/

/-- The effect a taken key has by the terminal's state, with no alert to acknowledge. In ASKING only
CLEAR is taken (R140). A terminal in SHOWING or LIMIT ENTRY always has a shown symbol. -/
def keyByState (t : Fin 4) (k : Key) (s : State) : State :=
  match (s.term t).state, (s.term t).shown with
  | .idle, _ => keyIdle t k s
  | .keying, _ => keyKeying t k s
  | .asking, _ => if k = .clear then abandonAsk t s else s
  | .showing, some sym => keyShowing t k sym s
  | .limitEntry, some sym => keyLimitEntry t k sym s
  | .showing, none => s
  | .limitEntry, none => s

/-- R143: CLEAR with alerts held acknowledges the oldest; any other key acts by the state. -/
def keyOrAcknowledge (t : Fin 4) (k : Key) (s : State) : State :=
  if k = .clear ∧ (s.term t).alerts ≠ [] then
    s.onTerm t (fun m => { m with alerts := m.alerts.tail })
  else keyByState t k s

/-- R142: every taken key clears the transient message first. -/
def takeKey (t : Fin 4) (k : Key) (s : State) : State :=
  keyOrAcknowledge t k (s.onTerm t Terminal.hush)

/-- R139, R140: the queued keys are taken in order until the terminal asks. -/
def drainKeys (t : Fin 4) : Nat → State → State
  | 0, s => s
  | n + 1, s =>
    match (s.term t).state, (s.term t).keyQueue with
    | .asking, _ => s
    | _, [] => s
    | _, k :: ks => drainKeys t n (takeKey t k (s.onTerm t (fun m => { m with keyQueue := ks })))

/-- R139: a key joins the back of terminal t's queue. -/
def enqueueKey (t : Fin 4) (k : Key) (s : State) : State :=
  s.onTerm t (fun m => { m with keyQueue := m.keyQueue ++ [k] })

/-- R139, R140: a key produced at an active terminal: dropped when 4 keys wait, kept as typeahead in
ASKING unless it is CLEAR, and otherwise taken at once. -/
def offerKey (t : Fin 4) (k : Key) (s : State) : State :=
  if s.active t then
    if Config.keyQueueSize ≤ (s.term t).keyQueue.length then
      rejectBeep t (s.count .keysAlertsDropped)
    else if (s.term t).state = .asking then
      if k = .clear then takeKey t k s else enqueueKey t k s
    else drainKeys t Config.keyQueueSize (enqueueKey t k s)
  else s

/-! ### Answers at a terminal (R147, R161, R162) -/

/-- R161: the Answer completes the terminal's outstanding ask. -/
def answerMatches (m : AnswerMsg) (s : State) : Bool :=
  s.active m.terminal && decide ((s.term m.terminal).state = .asking) &&
    (match (s.term m.terminal).ask with
      | some a => a.tag == m.tag && a.symbol == m.symbol
      | none => false)

/-- R147: the terminal in SHOWING after an Answer. -/
def Terminal.showAnswer (sym : Symbol) (m : Terminal) : Terminal :=
  { m.hush with shown := some sym, entry := [], state := .showing }

/-- R161, R162: an Answer to this station: taken, with the typeahead after it, or stale. -/
def takeAnswer (m : AnswerMsg) (s : State) : State :=
  if answerMatches m s then
    drainKeys m.terminal Config.keyQueueSize
      ((tableAnswer m (endAsk m.terminal s)).onTerm m.terminal (Terminal.showAnswer m.symbol))
  else s.count .framesDiscarded

/-! ### The scan (R136 to R138) -/

/-- R210: a raw reading; the four positions with no switch always read up. -/
def rawDown (raw : BitVec 48) (pos : Nat) : Bool := decide (pos < 44) && raw.getLsbD pos

/-- R138: how many positions read down. -/
def downCount (raw : BitVec 48) : Nat := ((List.range 48).filter (rawDown raw)).length

/-- R138: the ghost lock after a scan with n positions down. -/
def lockAfter (lock : Bool) (n : Nat) : Bool :=
  if 3 ≤ n then true else if n ≤ 1 then false else lock

/-- R137: one position's debounce at a scan. -/
def Debounce.scan (raw : Bool) (d : Debounce) : Debounce :=
  if raw = d.down then { d with count := 0 }
  else if 3 ≤ d.count + 1 then { down := raw, count := 0 }
  else { d with count := d.count + 1 }

/-- R210: the key of a key code. -/
def keyOfCode (code : Nat) : Option Key :=
  if h : code < 26 then some (.letter ⟨code, h⟩)
  else if h : code - 26 < 10 then some (.digit ⟨code - 26, h⟩)
  else match code with
    | 36 => some .fraction
    | 37 => some .rub
    | 38 => some .clear
    | 39 => some .quote
    | 40 => some .watch
    | 41 => some .unwatch
    | 42 => some .next
    | 43 => some .limit
    | _ => none

/-- The positions whose debounced reading changes from up to down, in rising order of key code. -/
def pressed (old new : List Debounce) : List Nat :=
  (List.range 48).filter (fun i =>
    !(old.getD i ⟨false, 0⟩).down && (new.getD i ⟨false, 0⟩).down)

/-- R136, R137: the debounce state after a scan. -/
def scanned (raw : BitVec 48) (old : List Debounce) : List Debounce :=
  List.zipWith Debounce.scan ((List.range 48).map (rawDown raw)) old

/-- R139: the key of a code is offered to terminal t. -/
def offerCode (t : Fin 4) (s : State) (code : Nat) : State :=
  match keyOfCode code with
  | some k => offerKey t k s
  | none => s

/-- R136 to R139: one scan of terminal t's matrix. -/
def scanTerminal (t : Fin 4) (raw : BitVec 48) (s : State) : State :=
  if s.active t then
    if lockAfter (s.term t).ghostLock (downCount raw) then
      s.onTerm t (fun m => { m with ghostLock := true, debounce := scanned raw m.debounce })
    else
      (pressed (s.term t).debounce (scanned raw (s.term t).debounce)).foldl (offerCode t)
        (s.onTerm t (fun m => { m with ghostLock := false, debounce := scanned raw m.debounce }))
  else s

/-- R137: the debounced reading of a position flips. -/
def flipPosition (pos : Nat) (ds : List Debounce) : List Debounce :=
  ds.modify pos (fun d => { down := !d.down, count := 0 })

/-- R137: the third disagreeing reading of one position: its reading flips, and a change from up to
down produces a key unless the ghost lock is set. Nothing is due with a count below 2. -/
def debouncePosition (t : Fin 4) (pos : Nat) (s : State) : State :=
  if s.active t && decide (pos < 44) &&
      decide (2 ≤ ((s.term t).debounce.getD pos ⟨false, 0⟩).count) then
    if ((s.term t).debounce.getD pos ⟨false, 0⟩).down || (s.term t).ghostLock then
      s.onTerm t (fun m => { m with debounce := flipPosition pos m.debounce })
    else
      offerCode t (s.onTerm t (fun m => { m with debounce := flipPosition pos m.debounce })) pos
  else s

/-! ### The display (R153, R154) -/

/-- The limit entry as keyed (R153). -/
def Terminal.limitText (m : Terminal) : List Glyph :=
  m.whole.map (fun d => gDigit d.val) ++ (if m.fracMark then [gSlash] else []) ++
    (match m.eighths with
      | some e => [gDigit e.val]
      | none => [])

/-- R153: the quote line of SHOWING from cell 6: price, tick and net change. -/
def quoteCells (r : QuoteRecord) : List Glyph :=
  priceCells (r.last.map LastGroup.price) ++ [gSpace] ++
    tickText ((r.last.map LastGroup.tick).getD .noTick) ++ [gSpace] ++ changeText (netChange r) ++
    [gSpace]

/-- The record a terminal shows. -/
def State.shownRecord (s : State) (m : Terminal) : Option QuoteRecord :=
  m.shown.bind (fun sym => findRecord sym s.table)

/-- R153: line 1. -/
def line1 (s : State) (m : Terminal) : List Glyph :=
  padRight 20 (match m.state with
    | .idle => []
    | .keying => m.entry.map gLetter
    | .asking => (entrySymbol m.entry).places ++ [gSpace] ++ glyphs ['A', 'S', 'K', 'I', 'N', 'G']
    | .showing => (m.shown.map Symbol.places).getD [] ++ [gSpace] ++
        ((s.shownRecord m).map quoteCells).getD []
    | .limitEntry => (m.shown.map Symbol.places).getD [] ++ [gSpace] ++
        glyphs ['L', 'I', 'M', 'I', 'T', ' '] ++ m.limitText)

/-- R154 case 1: an alert's line, with the number of alerts held. -/
def alertLine (a : Alert) (n : Nat) : List Glyph :=
  a.symbol.places ++ [gSpace] ++
    (match a.direction with
      | .above => glyphs ['A', 'B', 'O', 'V', 'E']
      | .below => glyphs ['B', 'E', 'L', 'O', 'W']) ++ [gSpace] ++ priceText a.price ++
    [gSpace, gSpace, gStar, gDigit n]

/-- R154 case 2: a transient message's text. -/
def Message.text : Message → List Glyph
  | .noQuote => glyphs ['N', 'O', ' ', 'Q', 'U', 'O', 'T', 'E']
  | .lineBusy => glyphs ['L', 'I', 'N', 'E', ' ', 'B', 'U', 'S', 'Y']

/-- R154 cases 3 and 4: a shown record's state, or its bid and ask. -/
def recordLine (r : QuoteRecord) : List Glyph :=
  if r.state = .opened then
    glyphs ['B'] ++ priceCells r.bid ++ [gSpace] ++ glyphs ['A'] ++ priceCells r.ask
  else stateWord r.state

/-- R154: the terminal shows a record on line 2. -/
def Terminal.showsRecord (m : Terminal) : Bool :=
  decide (m.state = .showing) || decide (m.state = .limitEntry)

/-- R154: line 2, the first case that applies. -/
def line2 (s : State) (m : Terminal) : List Glyph :=
  padRight 20 (match m.alerts, m.message, (if m.showsRecord then s.shownRecord m else none) with
    | a :: as, _, _ => alertLine a (as.length + 1)
    | [], some msg, _ => msg.text
    | [], none, some r => recordLine r
    | [], none, none => [])

/-- R135, R153: an active terminal's display is composed anew; an inactive one's stays blank. -/
def composeDisplay (t : Fin 4) (s : State) : State :=
  if s.active t then
    s.onTerm t (fun m => { m with display := ⟨line1 s m, line2 s m⟩ })
  else s

/-! ### The floor tick at a terminal (R141, R142) -/

/-- R141: the beeper falls silent when no time remains. -/
def Terminal.beeperExpiry (m : Terminal) : Terminal :=
  if m.beeper = 0 then { m with beeperOn := false } else m

/-- R142: the message becomes none when its timer has reached 0. -/
def Terminal.messageExpiry (m : Terminal) : Terminal :=
  if m.messageTimer = 0 then { m with message := none } else m

/-- R141, R142: the countdowns of one floor tick. -/
def Terminal.tick (m : Terminal) : Terminal :=
  (Terminal.messageExpiry (Terminal.beeperExpiry
    { m with beeper := m.beeper - 1, messageTimer := m.messageTimer - 1 }))

/-! ### The commands -/

/-- DEBOUNCE_CHANGE (R137). -/
def execDebounceChange (t : Fin 4) (pos : Fin 48) (s : State) : Host.Outcome State Fault Refusal :=
  inService s (debouncePosition t pos.val)

/-- LETTER_KEY (R145; R139, R140, R144, R148, R151). -/
def execLetterKey (t : Fin 4) (letter : Fin 26) (s : State) : Host.Outcome State Fault Refusal :=
  inService s (offerKey t (.letter letter))

/-- DIGIT_KEY (R151; R139, R140, R144, R145, R148). -/
def execDigitKey (t : Fin 4) (digit : Fin 10) (s : State) : Host.Outcome State Fault Refusal :=
  inService s (offerKey t (.digit digit))

/-- QUOTE_KEY (R146; R148, R152, R158, R171). -/
def execQuoteKey (t : Fin 4) (s : State) : Host.Outcome State Fault Refusal :=
  inService s (offerKey t .quote)

/-- CLEAR_KEY (R143; R140, R144, R145, R147, R148, R151, R160, R174). -/
def execClearKey (t : Fin 4) (s : State) : Host.Outcome State Fault Refusal :=
  inService s (offerKey t .clear)

/-- RUB_KEY (R145, R151). -/
def execRubKey (t : Fin 4) (s : State) : Host.Outcome State Fault Refusal :=
  inService s (offerKey t .rub)

/-- WATCH_KEY (R149, R169). -/
def execWatchKey (t : Fin 4) (s : State) : Host.Outcome State Fault Refusal :=
  inService s (offerKey t .watch)

/-- UNWATCH_KEY (R149, R170). -/
def execUnwatchKey (t : Fin 4) (s : State) : Host.Outcome State Fault Refusal :=
  inService s (offerKey t .unwatch)

/-- NEXT_KEY (R150). -/
def execNextKey (t : Fin 4) (s : State) : Host.Outcome State Fault Refusal :=
  inService s (offerKey t .next)

/-- LIMIT_KEY (R149). -/
def execLimitKey (t : Fin 4) (s : State) : Host.Outcome State Fault Refusal :=
  inService s (offerKey t .limit)

/-- FRACTION_KEY (R151). -/
def execFractionKey (t : Fin 4) (s : State) : Host.Outcome State Fault Refusal :=
  inService s (offerKey t .fraction)

/-- BEEPER_EXPIRY (R141). -/
def execBeeperExpiry (t : Fin 4) (s : State) : Host.Outcome State Fault Refusal :=
  inService s (fun s => s.onTerm t Terminal.beeperExpiry)

/-- MESSAGE_EXPIRY (R142). -/
def execMessageExpiry (t : Fin 4) (s : State) : Host.Outcome State Fault Refusal :=
  inService s (fun s => s.onTerm t Terminal.messageExpiry)

/-- ASK_TIMEOUT (R159). -/
def execAskTimeout (t : Fin 4) (s : State) : Host.Outcome State Fault Refusal :=
  inService s (timeoutAsk t)

end Sys2Proof.Machine
end

