-- ==== Sys2Proof/Machine/Lamps.lean ====
section
/-!
DEFINITION. The lamp driver: the cells' images, the latched window, the demands, the allocation and
the final levels (chapters 3 and 6, and the board digits of chapter 1); and the refresh frame, with
the display composition and the key scan that fall in it.
-/
namespace Sys2Proof.Machine

/-! ### Digits and legends (R10 to R12) -/

/-- R11: the segments of a figure: top, upper left, upper right, middle, lower left, lower right,
bottom. -/
def segments (d : Nat) : List Bool :=
  match d with
  | 0 => [true, true, true, false, true, true, true]
  | 1 => [false, false, true, false, false, true, false]
  | 2 => [true, false, true, true, true, false, true]
  | 3 => [true, false, true, true, false, true, true]
  | 4 => [false, true, true, true, false, true, false]
  | 5 => [true, true, false, true, false, true, true]
  | 6 => [true, true, false, true, true, true, true]
  | 7 => [true, false, true, false, false, true, false]
  | 8 => [true, true, true, true, true, true, true]
  | 9 => [true, true, true, true, false, true, true]
  | _ => [false, false, false, false, false, false, false]

/-- R11: a blank digit lights no segment. -/
def blankDigit : List Bool := List.replicate 7 false

/-- R11: a digit, shown or blank. -/
def digitLamps (shown : Bool) (d : Nat) : List Bool := if shown then segments d else blankDigit

/-- R12: the legend of e eighths: the e-th lamp from the left, none for 0. -/
def legend (e : Nat) : List Bool := [1, 2, 3, 4, 5, 6, 7].map (fun k => k == e)

/-- R10: the price field's 28 lamps for a price: hundreds, tens, units, legend. -/
def priceLamps (p : Nat) : List Bool :=
  digitLamps (decide (100 ≤ p / 8 % 1000)) (p / 8 % 1000 / 100) ++
    digitLamps (decide (10 ≤ p / 8 % 1000)) (p / 8 % 1000 / 10 % 10) ++
    segments (p / 8 % 1000 % 10) ++ legend (p % 8)

/-- R49: the placeholder: the middle segment of each digit. -/
def placeholderLamps : List Bool :=
  [false, false, false, true, false, false, false] ++
    [false, false, false, true, false, false, false] ++
    [false, false, false, true, false, false, false] ++ legend 0

/-- R9: the change field's 24 lamps: +, −, UNCH, tens, units, legend. -/
def changeLamps : Option Int → List Bool
  | none => List.replicate 24 false
  | some c =>
    if c = 0 then [false, false, true] ++ List.replicate 21 false
    else
      [decide (0 < c), decide (c < 0), false] ++
        digitLamps (decide (10 ≤ changeMagnitude c / 8)) (changeMagnitude c / 8 / 10) ++
        digitLamps (decide (1 ≤ changeMagnitude c / 8)) (changeMagnitude c / 8 % 10) ++
        legend (changeMagnitude c % 8)

/-! ### A cell's image (R47 to R53) -/

/-- Lamps at a level, 0 for a dark one. -/
def atLevel (level : Nat) (lamps : List Bool) : List Nat :=
  lamps.map (fun lit => if lit then level else 0)

/-- R50: the cell level of a record that holds a last. -/
def cellLevel (st : TradingState) (age : Nat) : Nat :=
  if st = .closed then 8 else if age < 128 then 15 else max 8 (15 - (age - 128) / 32)

/-- R49: the price the price field shows, if it shows one. -/
def QuoteRecord.shownPrice (r : QuoteRecord) : Option Nat :=
  match r.last with
  | some l => some l.price
  | none => r.reference

/-- R49: the price field's level. -/
def QuoteRecord.priceLevel (r : QuoteRecord) : Nat :=
  if r.last.isSome then cellLevel r.state r.age else 8

/-- R49, R53: the price field of a planned cell, with the stencil's bit. -/
def priceField (r : QuoteRecord) (lit : Bool) : List Nat :=
  if lit then
    atLevel r.priceLevel (match r.shownPrice with
      | some p => priceLamps p
      | none => placeholderLamps)
  else List.replicate 28 0

/-- R51, R53: the tick lamps UP and DOWN. -/
def tickField (r : QuoteRecord) (lit : Bool) : List Nat :=
  match r.last with
  | some l => atLevel (cellLevel r.state r.age) [lit && l.tick.isUp, lit && l.tick.isDown]
  | none => [0, 0]

/-- R51: the change field. -/
def changeField (r : QuoteRecord) : List Nat :=
  atLevel (cellLevel r.state r.age) (changeLamps (netChange r))

/-- R10, R52: OVER is lit for a shown price whose whole part is 1000 or more. -/
def overLit (r : QuoteRecord) : Bool :=
  match r.shownPrice with
  | some p => decide (1000 ≤ p / 8)
  | none => false

/-- R52: the state lamps HALT, DELAY, CORR and OVER, at level 15. -/
def statusField (r : QuoteRecord) : List Nat :=
  atLevel 15 [r.state == .halted, r.state == .delayed, r.suspect, overLit r]

/-- R48 to R53: a cell's image; dark when it is unplanned. -/
def cellImage (table : List QuoteRecord) (c : CellRecord) : CellLamps :=
  match c.link.bind (fun sym => findRecord sym table) with
  | none => CellLamps.dark
  | some r =>
    { price := priceField r c.lit, tick := tickField r c.lit, change := changeField r,
      status := statusField r }

/-- R46, R118: the board image as the table and the cells stand. -/
def boardImage (s : State) : List CellLamps := s.cells.map (cellImage s.table)

/-! ### The window (R97, R98, R119) -/

/-- R97: the held character in which absolute column a lies, with its glyph column. -/
def columnAt (hold : List TapeChar) (a : Col) : Option WindowColumn :=
  (hold.find? (fun c => decide ((a - c.entry).toNat ≤ 5))).map
    (fun c => ⟨c.index, c.glyph, c.attr, (a - c.entry).toNat⟩)

/-- R97, R98: the window from L to R; dark in WAITING and DARK. -/
def windowImage (s : State) : List (Option WindowColumn) :=
  (List.range s.straps.width).map (fun i =>
    if s.moving then columnAt s.crawl.hold (s.leftCol + BitVec.ofNat 24 i) else none)

/-! ### Dots (R119, R122; log entry 5) -/

/-- A dot pattern held to n lit dots: a pattern that has n lit dots is left as it is. -/
def fitDots : Nat → List Bool → List Bool
  | _, [] => []
  | 0, _ :: bs => false :: fitDots 0 bs
  | n + 1, b :: bs =>
    if b || decide (bs.length < n + 1) then true :: fitDots n bs else false :: fitDots (n + 1) bs

/-- The free 35 bits of a character code. -/
def rawDots (g : Glyph) : List Bool :=
  (List.range 35).map (fun i => (Config.fontBits g.toNat).getLsbD i)

/-- R122: the 35 dots of a glyph, column by column: a free pattern with the glyph's full dot count. -/
def glyphDots (g : Glyph) : List Bool := fitDots (dotCount g) (rawDots g)

/-- R97, R119: the seven dots of a glyph column; column 5 is blank. -/
def glyphColumn (g : Glyph) (column : Nat) : List Bool :=
  if column < 5 then ((glyphDots g).drop (7 * column)).take 7 else List.replicate 7 false

/-- R119: the unscaled level of a character's dots. -/
def attrLevel : Attr → Nat
  | .normal => 12
  | .notice => 15

/-! ### Demand (R120 to R122) -/

/-- The levels of a cell's 58 lamps. -/
def CellLamps.levels (c : CellLamps) : List Nat := c.price ++ c.tick ++ c.change ++ c.status

/-- R120: the units of an image. -/
def boardUnits (image : List CellLamps) : Nat := (image.map (fun c => c.levels.sum)).sum

/-- R121: a window column begins the charge of a character: the column to its left does not continue
the same character. -/
def beginsCharge (prev : Option WindowColumn) (c : WindowColumn) : Bool :=
  match prev with
  | none => true
  | some p => !(p.index == c.index && p.glyph == c.glyph && p.attr == c.attr &&
      decide (p.column < c.column))

/-- R121: the ribbon demand of a window, from its left edge; `prev` is the column to the left. A
character is charged once, in full, for any of its columns in view. -/
def ribbonDemand : Option WindowColumn → List (Option WindowColumn) → Nat
  | _, [] => 0
  | _, none :: cs => ribbonDemand none cs
  | prev, some c :: cs =>
    (if beginsCharge prev c then dotCount c.glyph * attrLevel c.attr else 0) +
      ribbonDemand (some c) cs

/-! ### Allocation and scaling (R125 to R127) -/

/-- R125: the board floor. -/
def boardFloor (bEff dB : Nat) : Nat := min dB (bEff / 4)
/-- R125: the ribbon allowance. -/
def ribbonAllowance (bEff dB : Nat) : Nat := bEff - boardFloor bEff dB
/-- R125: the ribbon grant. -/
def ribbonGrant (bEff dB dR : Nat) : Nat := min dR (ribbonAllowance bEff dB)
/-- R125: the board allowance. -/
def boardAllowance (bEff dB dR : Nat) : Nat := bEff - ribbonGrant bEff dB dR

/-- R126, R127: a level scaled by allowance over demand when the demand is above it. -/
def scaled (allowance demand level : Nat) : Nat :=
  if allowance < demand then level * allowance / demand else level

/-- R127: a cell's final levels. -/
def CellLamps.scale (allowance demand : Nat) (c : CellLamps) : CellLamps :=
  { price := c.price.map (scaled allowance demand), tick := c.tick.map (scaled allowance demand),
    change := c.change.map (scaled allowance demand),
    status := c.status.map (scaled allowance demand) }

/-- R126: a dot column's dots and final level. -/
def dotColumn (allowance demand : Nat) : Option WindowColumn → DotColumn
  | none => { dots := List.replicate 7 false, level := 0 }
  | some c => { dots := glyphColumn c.glyph c.column,
                level := scaled allowance demand (attrLevel c.attr) }

/-- R117, R125 to R127: the frame result of a latched picture under an effective budget. -/
def frameResult (bEff : Nat) (image : List CellLamps) (window : List (Option WindowColumn)) :
    FrameResult :=
  { bEff := bEff
    dB := boardUnits image
    dR := ribbonDemand none window
    floor := boardFloor bEff (boardUnits image)
    allowR := ribbonAllowance bEff (boardUnits image)
    grantR := ribbonGrant bEff (boardUnits image) (ribbonDemand none window)
    allowB := boardAllowance bEff (boardUnits image) (ribbonDemand none window)
    board := image.map (CellLamps.scale
      (boardAllowance bEff (boardUnits image) (ribbonDemand none window)) (boardUnits image))
    ribbon := window.map (dotColumn (ribbonAllowance bEff (boardUnits image))
      (ribbonDemand none window)) }

/-- R128: the units a dot column draws. -/
def DotColumn.units (c : DotColumn) : Nat := (c.dots.filter id).length * c.level

/-- R128: the units all lamps and dots of a frame draw. -/
def FrameResult.drawn (r : FrameResult) : Nat :=
  boardUnits r.board + (r.ribbon.map DotColumn.units).sum

/-! ### The refresh frame (R117, R136, R153) -/

/-- R117: the latch and the working-out. -/
def latchFrame (s : State) : State :=
  s.withLamps { s.lamps with
    image := boardImage s
    window := windowImage s
    result := some (frameResult s.lamps.effective (boardImage s) (windowImage s)) }

/-- R153: every active terminal's display lines. -/
def composeDisplays (s : State) : State :=
  composeDisplay 3 (composeDisplay 2 (composeDisplay 1 (composeDisplay 0 s)))

/-- R136: every active terminal's scan. -/
def scanKeys (raw0 raw1 raw2 raw3 : BitVec 48) (s : State) : State :=
  scanTerminal 3 raw3 (scanTerminal 2 raw2 (scanTerminal 1 raw1 (scanTerminal 0 raw0 s)))

/-- R117, R136, R153: a refresh frame: the latch, the display composition, the key scan (in that
order: log entry 15). -/
def refreshFrame (raw0 raw1 raw2 raw3 : BitVec 48) (s : State) : State :=
  scanKeys raw0 raw1 raw2 raw3 (composeDisplays (latchFrame s))

/-! ### Warm-up (R124) -/

/-- R124: the effective budget follows the warm-up count. -/
def State.budgetPhase (s : State) : State :=
  s.withLamps { s.lamps with effective := budgetAt s.straps.budget s.lamps.warmUp }

/-- R124: the warm-up count at a floor tick. -/
def warmUpTick (s : State) : State :=
  (s.withLamps { s.lamps with
    warmUp := if s.lamps.warmUp < 64 then s.lamps.warmUp + 1 else s.lamps.warmUp }).budgetPhase

/-! ### The commands -/

/-- REFRESH_FRAME (R117; chapters 3, 6 and 7 as cited above). -/
def execRefreshFrame (raw0 raw1 raw2 raw3 : BitVec 48) (s : State) :
    Host.Outcome State Fault Refusal :=
  inService s (refreshFrame raw0 raw1 raw2 raw3)

/-- WARM_UP_PHASE (R124). -/
def execWarmUpPhase (s : State) : Host.Outcome State Fault Refusal := inService s State.budgetPhase

end Sys2Proof.Machine
end

