-- ==== Sys2Proof/Machine/Clock.lean ====
section
/-!
DEFINITION. The floor tick, and the two thresholds it drives that belong to no other file: the end of
a stencil pattern (R55) and the line-silence timer (R205). The order of its parts is log entry 14.
-/
namespace Sys2Proof.Machine

/-! ### The parts of a floor tick -/

/-- R200: the tick count at a floor tick. -/
def countTick (s : State) : State := s.withTickCount (s.tickCount + 1)

/-- R18: every held record's age. -/
def ageRecords (s : State) : State := s.withTable (s.table.map QuoteRecord.tick)

/-- R55, R56: every cell's stencil shifts. -/
def shiftStencils (s : State) : State := s.withCells (s.cells.map CellRecord.shift)

/-- R92: the silence timer of a non-head segment; a head's is stopped. -/
def silenceTick (s : State) : State := s.onCrawl Crawl.silenceTick

/-- R141, R142: every terminal's beeper and message timers. -/
def tickTerminals (s : State) : State := s.withTerminals (s.terminals.map Terminal.tick)

/-- R159: every ask whose deadline has come. -/
def timeoutAsks (s : State) : State :=
  timeoutAsk 3 (timeoutAsk 2 (timeoutAsk 1 (timeoutAsk 0 s)))

/-- R205: the fault lamp is lit while the timer stands at 80. -/
def lightAtLimit (s : State) : State :=
  if s.lineSilence = 80 then s.withSilence 80 true else s

/-- R205: the line-silence timer at a floor tick, and the lamp when it reaches 80. -/
def lineSilenceTick (s : State) : State :=
  lightAtLimit (if s.lineSilence < 80 then s.withSilence (s.lineSilence + 1) s.faultLamp else s)

/-- A floor tick (00 Timebase; R18, R55, R75, R92, R124, R141, R142, R159, R200, R205). -/
def floorTick (s : State) : State :=
  lineSilenceTick (timeoutAsks (tickTerminals (silenceTick (idleTick (warmUpTick
    (shiftStencils (ageRecords (countTick s))))))))

/-! ### A pattern's end on its own -/

/-- R55: the pattern of a cell has reached its last position. -/
def CellRecord.exhausted (c : CellRecord) : Bool :=
  c.pattern != .steady && decide (c.pattern.length ≤ c.position)

/-- R55: an exhausted pattern is reloaded or stopped; nothing is due before (log entry 17). -/
def CellRecord.endIfDue (c : CellRecord) : CellRecord := if c.exhausted then c.patternEnd else c

/-! ### The commands -/

/-- FLOOR_TICK. -/
def execFloorTick (s : State) : Host.Outcome State Fault Refusal := inService s floorTick

/-- PATTERN_END (R55). -/
def execPatternEnd (cell : Fin 16) (s : State) : Host.Outcome State Fault Refusal :=
  inService s (fun s => s.onCells [cell] CellRecord.endIfDue)

/-- LINE_SILENCE_TIMEOUT (R205). -/
def execLineSilenceTimeout (s : State) : Host.Outcome State Fault Refusal := inService s lightAtLimit

end Sys2Proof.Machine
end

