-- ==== Sys2Proof/Machine/Wire.lean ====
section
/-!
DEFINITION. The bytes of the floor line: CLASS code words (R180, R207), the check byte (R181), the
bodies of the frames a 316 sends (R206, R209), a frame as it is sent (R178, R179), and a byte as ten bit
levels (R176).
-/
namespace Sys2Proof.Machine

/-! ### A byte on the line (R176) -/

/-- R176: the ten levels a byte is sent as: a dominant start bit, the data bits least significant first,
a recessive stop bit. -/
def lineLevels (b : Byte) : LineLevels := 1#1 ++ b ++ 0#1

/-- R176: ten recessive levels: the line as nobody drives it. -/
def floating : LineLevels := BitVec.allOnes 10

/-- R176: the start bit reads recessive at its middle: it was no start. -/
def falseStart (levels : LineLevels) : Bool := levels.getLsbD 0

/-- R176: the stop bit reads recessive; dominant is a framing error. -/
def stopGood (levels : LineLevels) : Bool := levels.getLsbD 9

/-- R176: the data byte of ten sampled levels. -/
def dataByte (levels : LineLevels) : Byte := levels.extractLsb' 1 8

/-- R185: a bit of byte b, sent recessive, is read dominant. -/
def overridden (b : Byte) (levels : LineLevels) : Bool := lineLevels b &&& ~~~ levels != 0

/-! ### CLASS (R180, R207) -/

/-- R207: the check bits of a class: the exclusive-or of the patterns of its set bits. -/
def checkBits (c : BitVec 4) : BitVec 4 :=
  (if c.getLsbD 0 then 0x7#4 else 0) ^^^ (if c.getLsbD 1 then 0xB#4 else 0) ^^^
    (if c.getLsbD 2 then 0xD#4 else 0) ^^^ (if c.getLsbD 3 then 0xE#4 else 0)

/-- R207: the code word of a class: the class number high, its check bits low. -/
def codeWord (c : BitVec 4) : Byte := c ++ checkBits c

/-- How many bits of a byte are set. -/
def weight (b : Byte) : Nat := ((List.range 8).filter b.getLsbD).length

/-- The sixteen classes. -/
def classNumbers : List (BitVec 4) := [0, 1, 2, 3, 4, 5, 6, 7, 8, 9, 10, 11, 12, 13, 14, 15]

/-- R180, R207: the class a CLASS byte is read as, and whether one bit was corrected; none for a
double error. -/
def decodeClass (b : Byte) : Option (BitVec 4 × Bool) :=
  match classNumbers.find? (fun c => codeWord c == b) with
  | some c => some (c, false)
  | none =>
    (classNumbers.find? (fun c => weight (codeWord c ^^^ b) == 1)).map (fun c => (c, true))

/-- R207: the number of an assigned class. -/
def MsgClass.number : MsgClass → BitVec 4
  | .print => 1
  | .quote => 2
  | .status => 3
  | .cancel => 4
  | .plan => 5
  | .dayStart => 6
  | .ask => 7
  | .answer => 8
  | .handoff => 9
  | .pace => 10
  | .tallyQuery => 11
  | .tally => 12

/-- R207: the assigned class of a number; 0 and 13 to 15 are unassigned. -/
def classOf (c : BitVec 4) : Option MsgClass :=
  match c.toNat with
  | 1 => some .print
  | 2 => some .quote
  | 3 => some .status
  | 4 => some .cancel
  | 5 => some .plan
  | 6 => some .dayStart
  | 7 => some .ask
  | 8 => some .answer
  | 9 => some .handoff
  | 10 => some .pace
  | 11 => some .tallyQuery
  | 12 => some .tally
  | _ => none

/-! ### The check byte (R181) -/

/-- The sum of bytes modulo 256. -/
def byteSum (bs : List Byte) : Byte := bs.foldl (fun a b => a + b) 0

/-- R181: the check byte: the one's complement of the sum of DEST, LEN, ORIGIN and the body. -/
def checkByte (f : Frame) : Byte :=
  ~~~ byteSum (f.dest :: BitVec.ofNat 8 f.body.length :: f.origin :: f.body)

/-! ### A frame as sent (R178, R179, R187) -/

/-- SYNC. -/
def syncByte : Byte := 0xF0
/-- The second byte of an escape. -/
def escapeByte : Byte := 0x0F
/-- A hold byte that no receiver holds. -/
def freeHoldByte : Byte := 0xFF

/-- R179: a byte of 0xF0 after SYNC is sent as the pair F0 0F. -/
def escaped (bs : List Byte) : List Byte :=
  bs.flatMap (fun b => if b = syncByte then [syncByte, escapeByte] else [b])

/-- R178: what is sent before the hold section: SYNC, CLASS, DEST, LEN. -/
def headBytes (c : MsgClass) (f : Frame) : List Byte :=
  syncByte :: escaped [codeWord c.number, f.dest, BitVec.ofNat 8 f.body.length]

/-- R178: what is sent after the hold section: ORIGIN, BODY, CHECK. -/
def tailBytes (f : Frame) : List Byte := escaped (f.origin :: f.body ++ [checkByte f])

/-- R178: a frame as sent with one hold byte that no receiver holds. -/
def wireBytes (c : MsgClass) (f : Frame) : List Byte :=
  headBytes c f ++ freeHoldByte :: tailBytes f

/-- R187: the attempt is in its hold section. -/
def Sending.inHold (x : Sending) : Bool :=
  decide ((headBytes x.cls x.frame).length ≤ x.sent) && !x.holdOver

/-- R178, R187: the byte the attempt sends next: the frame's bytes in order, in the hold section 0xFF
until 24 have been read as held; none once the frame has been sent whole. -/
def Sending.nextByte (x : Sending) : Option Byte :=
  if x.sent < (headBytes x.cls x.frame).length then (headBytes x.cls x.frame)[x.sent]?
  else if x.holdOver then (tailBytes x.frame)[x.sent - (headBytes x.cls x.frame).length]?
  else if x.held < Config.holdLimit then some freeHoldByte
  else none

/-- R188: the last bit of CHECK, and of its escape, has been driven. -/
def Sending.allSent (x : Sending) : Bool := x.holdOver && x.nextByte.isNone

/-- R185: the attempt can still be lost: it is outside HOLD and has not been sent whole. -/
def Sending.canLose (x : Sending) : Bool := !x.inHold && !x.allSent

/-- R187: 24 hold bytes in a row have been read as held, and HOLD has not ended. -/
def Sending.heldOut (x : Sending) : Bool := x.inHold && decide (Config.holdLimit ≤ x.held)

/-- R185, R187: a hold byte read back as sent, every bit recessive but the start bit: HOLD ends. -/
def readsFree (levels : LineLevels) : Bool := dataByte levels == freeHoldByte && stopGood levels

/-! ### Bodies sent (R206, R209) -/

/-- R206: a two-byte field. -/
def bytes16 (n : Nat) : List Byte := [BitVec.ofNat 8 n, BitVec.ofNat 8 (n / 256)]

/-- R206: a three-byte field. -/
def bytes24 (c : Col) : List Byte :=
  [c.extractLsb' 0 8, c.extractLsb' 8 8, c.extractLsb' 16 8]

/-- R206: a symbol's four bytes. -/
def symbolBytes (y : Symbol) : List Byte :=
  [y.p0.setWidth 8, y.p1.setWidth 8, y.p2.setWidth 8, y.p3.setWidth 8]

/-- R209: the attribute byte. -/
def attrByte : Attr → Byte
  | .notice => 1
  | .normal => 0

/-- R209: a terminal, ribbon or other field of 0 to 3. -/
def smallByte (t : Fin 4) : Byte := BitVec.ofNat 8 t.val

/-- R209: a character of a Handoff, its glyph code as held: a code of 49 to 63 that came in a Handoff goes
on unchanged (log entry 31). -/
def handoffCharBytes (c : HandoffChar) : List Byte :=
  bytes24 c.entry ++ [c.glyph.setWidth 8, attrByte c.attr]

/-- R209: a presence bit. -/
def presence (present : Bool) (bit : Nat) : Nat := if present then 2 ^ bit else 0

/-- R165, R209: the presence flags of an Answer stamped from a record. -/
def answerFlags (r : QuoteRecord) : Byte :=
  BitVec.ofNat 8 (presence r.reference.isSome 0 + presence r.last.isSome 1 + presence r.bid.isSome 2 +
    presence r.ask.isSome 3)

/-- R165, R206, R209: the body of an Answer stamped from a record, 0 in every field whose flag is
clear. -/
def answerBody (t : Fin 4) (tag : Byte) (r : QuoteRecord) : List Byte :=
  [smallByte t, tag] ++ symbolBytes r.symbol ++ [answerFlags r] ++ bytes16 (r.reference.getD 0) ++
    bytes16 ((r.last.map LastGroup.price).getD 0) ++
    [((r.last.map LastGroup.tick).getD .noTick).code] ++
    bytes16 ((r.last.map LastGroup.lots).getD 0) ++ bytes16 (r.bid.getD 0) ++
    bytes16 (r.ask.getD 0) ++ [r.state.code]

/-- The class of a queued frame (R184). -/
def TxPayload.cls : TxPayload → MsgClass
  | .handoff _ _ _ => .handoff
  | .ask _ _ _ => .ask
  | .answer _ _ _ => .answer
  | .pace _ => .pace
  | .tally _ _ => .tally

/-- R110, R165, R184, R209: a queued frame's body as stamped at the start of an attempt. An Answer is
stamped only when its symbol is held. -/
def stampedBody (s : State) : TxPayload → List Byte
  | .handoff offset first chars =>
    bytes16 offset.toNat ++ [BitVec.ofNat 8 chars.length] ++ bytes24 first ++
      chars.flatMap handoffCharBytes
  | .ask t tag sym => [smallByte t, tag] ++ symbolBytes sym
  | .answer t tag sym =>
    match findRecord sym s.table with
    | some r => answerBody t tag r
    | none => []
  | .pace r =>
    [smallByte r, BitVec.ofNat 8 s.crawl.paceLevel, BitVec.ofNat 8 s.composer.level] ++
      bytes24 s.crawl.stepCount
  | .tally status counts => status :: counts.flatMap bytes16

end Sys2Proof.Machine
end

