-- ==== Sys2Proof/Machine/Outputs.lean ====
section
/-!
DEFINITION. The outputs as the pins show them: which lamp is on in which part of a multiplex slot
(R130), the codes a terminal's display line carries (R210), the levels driven on the floor line (R176,
R186, R187), and the pins while reset is asserted (R197).
-/
namespace Sys2Proof.Machine

/-- R130: the multiplex slot, 0 to 7, that drives a board cell. -/
def cellSlot (cell : Fin 16) : Nat := cell.val / 2

/-- R130: the multiplex slot that drives a ribbon dot row, 0 to 6; slot 7 drives none. -/
def rowSlot (row : Fin 7) : Nat := row.val

/-- R130: in its slot a lamp of final level n is on for the first n sixteenths. -/
def onInSixteenth (level sixteenth : Nat) : Bool := decide (sixteenth < level)

/-- R130: board lamp k (0 to 57, in R47's order) of a cell is driven on in a sixteenth of a slot. -/
def boardLampOn (s : State) (cell : Fin 16) (k slot sixteenth : Nat) : Bool :=
  match s.lamps.result with
  | none => false
  | some r =>
    !s.resetAsserted && slot == cellSlot cell &&
      onInSixteenth ((r.board.getD cell.val CellLamps.dark).levels.getD k 0) sixteenth

/-- R130: the dot of a ribbon row in a dot column is driven on in a sixteenth of a slot. -/
def ribbonDotOn (s : State) (column : Nat) (row : Fin 7) (slot sixteenth : Nat) : Bool :=
  match s.lamps.result with
  | none => false
  | some r =>
    !s.resetAsserted && slot == rowSlot row &&
      (r.ribbon.getD column ⟨[], 0⟩).dots.getD row.val false &&
      onInSixteenth (r.ribbon.getD column ⟨[], 0⟩).level sixteenth

/-- R153, R210: what terminal t's display line sends in a refresh frame: 20 codes a line, cell 1 first,
line 1 before line 2. An inactive terminal's line is not driven (R135). -/
def displayCodes (s : State) (t : Fin 4) : Option (List Glyph) :=
  if s.active t then some ((s.term t).display.line1 ++ (s.term t).display.line2) else none

/-- R178, R187: the byte that this station sends next, if its frame is on the line and has one left. -/
def drivenByte (s : State) : Option Byte := s.line.sending.bind Sending.nextByte

/-- R186: a held byte: its eight data bits dominant. The start bit is the sender's, and the stop bit is
left recessive. -/
def heldLevels : LineLevels := 1#1 ++ 0#8 ++ 1#1

/-- R176, R186, R187, R197: the ten levels this station puts on the line in the next byte; the line reads
dominant where any station's level is. -/
def drivenLevels (s : State) : LineLevels :=
  if s.resetAsserted then floating
  else match drivenByte s with
    | some b => lineLevels b
    | none => if s.line.holdDrive then heldLevels else floating

/-- R186, R187, R197: this station drives the floor line: it is sending, or holds a hold byte. -/
def drivesLine (s : State) : Bool := drivenLevels s != floating

end Sys2Proof.Machine
end

