-- ==== Sys2Proof/Machine/Line.lean ====
section
/-!
DEFINITION. The line interface: the assembler, quiet and silence, attempts, losses, holds, and the
disposal of received frames (chapter 9).
-/
namespace Sys2Proof.Machine

/-! ### The assembler (R178 to R181) -/

/-- R179: the ORIGIN byte of the frame in assembly has been read as this station's own number. -/
def ownOriginRead (s : State) : Bool :=
  decide (3 ≤ s.line.assembly.bytes.length) && s.isOwnNumber (byteAt s.line.assembly.bytes 2)

/-- The assembler turns to a state with no frame in assembly; a hold being asserted ends (R179). -/
def Line.turnTo (a : AsmState) (l : Line) : Line :=
  { l with assembler := a, assembly := Assembly.empty, holding := false, holdDrive := false }

/-- R179: the frame in assembly is broken: counted, but for a frame whose ORIGIN was this station's
own, and dropped. -/
def breakFrame (next : AsmState) (s : State) : State :=
  (if ownOriginRead s then s else s.count .framesDiscarded).onLine (Line.turnTo next)

/-- s with f applied to the frame in assembly. -/
def State.onAssembly (s : State) (f : Assembly → Assembly) : State :=
  s.onLine (fun l => { l with assembly := f l.assembly })

/-- R180: the CLASS byte is decoded as it is taken. -/
def takeClassByte (b : Byte) (s : State) : State :=
  match decodeClass b with
  | some (c, corrected) =>
    (if corrected then s.count .classCorrections else s).onAssembly
      (fun a => { a with cls := some c, escape := false })
  | none => breakFrame .skipping s

/-- A byte joins the frame in assembly. -/
def Assembly.push (b : Byte) (a : Assembly) : Assembly :=
  { a with bytes := a.bytes ++ [b], escape := false }

/-- The frame that a full assembly holds: DEST, LEN, ORIGIN, LEN body bytes, CHECK (R178). -/
def Assembly.finish (a : Assembly) : Completed :=
  { cls := a.cls.getD 0
    frame := { dest := byteAt a.bytes 0, origin := byteAt a.bytes 2,
               body := (a.bytes.drop 3).take (byteAt a.bytes 1).toNat }
    check := byteAt a.bytes (3 + (byteAt a.bytes 1).toNat) }

/-- R181: when the CHECK byte has been taken the frame awaits its disposal and the assembler turns to
SEEKING. -/
def finishFrame (s : State) : State :=
  if s.line.assembly.bytes.length = 4 + (byteAt s.line.assembly.bytes 1).toNat then
    (s.onLine (fun l => { l with completed := some l.assembly.finish })).onLine
      (Line.turnTo .seeking)
  else s

/-- R178, R181, R187: an unescaped byte after CLASS is taken by its place. A held hold byte is not taken
into the frame. -/
def takeFieldByte (b : Byte) (s : State) : State :=
  match s.line.assembly.bytes.length with
  | 0 => s.onAssembly (Assembly.push b)
  | 1 =>
    if 32 < b.toNat then breakFrame .skipping s
    else s.onAssembly (fun a => { a.push b with inHold := true })
  | _ =>
    if s.line.assembly.inHold then
      if b = freeHoldByte then s.onAssembly (fun a => { a with inHold := false, escape := false })
      else s.onAssembly (fun a => { a with escape := false, heldRead := true })
    else finishFrame (s.onAssembly (Assembly.push b))

/-- An unescaped byte is taken by the frame in assembly. -/
def takeByte (b : Byte) (s : State) : State :=
  match s.line.assembly.cls with
  | none => takeClassByte b s
  | some _ => takeFieldByte b s

/-- R178: a SYNC begins a new frame. -/
def beginFrame (s : State) : State := s.onLine (Line.turnTo .assembling)

/-- R179: the escape-pending mark is set. -/
def markEscape (s : State) : State := s.onAssembly (fun a => { a with escape := true })

/-- R179: the byte after a SYNC found by an escape: the CLASS byte, or, when it is 0xF0, itself an
escape pending. -/
def byteAfterSync (b : Byte) (s : State) : State :=
  if b = syncByte then markEscape (beginFrame s) else takeByte b (beginFrame s)

/-- R178, R179: a byte read while ASSEMBLING. The byte after the SYNC that began the frame is CLASS
whatever its value. -/
def assembleByte (b : Byte) (s : State) : State :=
  if s.line.assembly.escape then
    if b = escapeByte then takeByte syncByte s
    else byteAfterSync b (breakFrame .seeking s)
  else if b = syncByte ∧ s.line.assembly.cls.isSome then markEscape s
  else takeByte b s

/-- R179: a byte read while SKIPPING, with escapes applied, looking only for a SYNC. A 0xF0 that 0x0F
does not follow was one, and the byte after it is taken as after any SYNC found by an escape. -/
def skipByte (b : Byte) (s : State) : State :=
  if s.line.assembly.escape then
    if b = escapeByte then s.onAssembly (fun a => { a with escape := false })
    else byteAfterSync b s
  else if b = syncByte then markEscape s
  else s

/-- R176, R179: a byte with a good stop bit, by the assembler's state. -/
def readByte (b : Byte) (s : State) : State :=
  match s.line.assembler with
  | .waitingForQuiet => s
  | .seeking => if b = syncByte then beginFrame s else s
  | .assembling => assembleByte b s
  | .skipping => skipByte b s

/-- R176, R179: a framing error: the byte is not taken, and a frame in assembly is broken, in the hold
section too (log entry 28). -/
def framingError (s : State) : State :=
  match s.line.assembler with
  | .assembling => breakFrame .skipping s
  | .waitingForQuiet => s
  | .seeking => s
  | .skipping => s

/-! ### Failed attempts (R188) -/

/-- R188: a queue after a failed attempt of its head: the 16th removes it. -/
def failedQueue : List TxFrame → List TxFrame
  | [] => []
  | f :: fs =>
    if f.retries + 1 < Config.attemptLimit then { f with retries := f.retries + 1 } :: fs else fs

/-- R188: a failed attempt of a queue's head is its 16th. -/
def abandonsHead : List TxFrame → Bool
  | [] => false
  | f :: _ => decide (Config.attemptLimit ≤ f.retries + 1)

/-- s with f applied to one of the transmit queues. -/
def State.onQueue (s : State) (q : QueueId) (f : List TxFrame → List TxFrame) : State :=
  match q with
  | .tape => s.onLine (fun l => { l with tapeQueue := f l.tapeQueue })
  | .general => s.onLine (fun l => { l with generalQueue := f l.generalQueue })

/-- One of the transmit queues. -/
def Line.queue (l : Line) : QueueId → List TxFrame
  | .tape => l.tapeQueue
  | .general => l.generalQueue

/-- R184: no frame of this station is on the line. -/
def offLine (s : State) : State := s.onLine (fun l => { l with sending := none })

/-- R188: the attempt in progress fails; the 16th failure abandons the frame. -/
def failAttempt (q : QueueId) (s : State) : State :=
  offLine ((if abandonsHead (s.line.queue q) then s.count .framesAbandoned else s).onQueue q
    failedQueue)

/-- R185: the attempt in progress is lost: the frame is no longer on the line, and the loss counts. -/
def loseAttempt (q : QueueId) (s : State) : State := failAttempt q (s.count .arbitrationLosses)

/-! ### The sender's own reading (R185, R187) -/

/-- s with f applied to the frame on the line. -/
def State.onSending (s : State) (f : Sending → Sending) : State :=
  s.onLine (fun l => { l with sending := l.sending.map f })

/-- R185, R187: the sender reads a hold byte back: as sent, it ends the hold section; with a bit read
dominant, the stop bit among them (log entry 28), it is held. -/
def readHoldBack (levels : LineLevels) (s : State) : State :=
  if readsFree levels then s.onSending (fun x => { x with holdOver := true })
  else s.onSending (fun x => { x with held := x.held + 1 })

/-- R185, R187: the sender of frame x reads back the byte b it sent. Outside HOLD a bit sent recessive and
read dominant loses the attempt. -/
def readBack (x : Sending) (b : Byte) (levels : LineLevels) (s : State) : State :=
  if x.inHold then readHoldBack levels s
  else if overridden b levels then loseAttempt x.queue s
  else s.onSending (fun y => { y with sent := y.sent + 1 })

/-- R185, R187: ten levels at a sender, if this station is one. -/
def senderReads (levels : LineLevels) (s : State) : State :=
  match s.line.sending with
  | none => s
  | some x =>
    match x.nextByte with
    | none => s
    | some b => readBack x b levels s

/-! ### Disposal at completion (R181, R191) -/

/-- R191: a frame is placed in a free slot as the newest arrival. -/
def placeInSlot (x : RxSlot) (s : State) : State :=
  s.onLine (fun l => { l with slots := l.slots ++ [x] })

/-- R191: a slot is free. -/
def slotFree (s : State) : Bool := decide (s.line.slots.length < Config.slotCount)

/-- R166: this station holds one or more Answers in its general queue. -/
def holdsAnswer (s : State) : Bool := s.line.generalQueue.any TxFrame.isAnswer

/-- R166, R167, R189: a snooped Answer that passes its checks withdraws this station's queued Answer with
its ask key at its completion (log entry 29). -/
def suppressBy (f : Frame) (s : State) : State :=
  match readAnswer f with
  | some m => suppress f.dest m s
  | none => s

/-- R191: the disposal of a good frame from another station. -/
def disposeGood (x : Completed) (s : State) : State :=
  match classOf x.cls with
  | none => s.count .framesDiscarded
  | some c =>
    if s.concerns x.frame.dest then
      if slotFree s then placeInSlot ⟨c, x.frame⟩ s else s.count .framesDiscarded
    else if c = .answer ∧ s.isOtherStation x.frame.dest ∧ holdsAnswer s ∧ slotFree s then
      placeInSlot ⟨c, x.frame⟩ (suppressBy x.frame s)
    else s

/-- R181, R205: a good frame from another station counts and restarts the line-silence timer. -/
def countGood (s : State) : State := (s.count .goodFrames).withSilence 0 false

/-- R181, R191: the checks and the disposal of a frame at its completion. -/
def disposeFrame (x : Completed) (s : State) : State :=
  if x.check = checkByte x.frame then
    if s.isOwnNumber x.frame.origin then s else disposeGood x (countGood s)
  else s.count .framesDiscarded

/-- R191: the completed frame, if there is one, is disposed of. -/
def frameComplete (s : State) : State :=
  match s.line.completed with
  | none => s
  | some x => disposeFrame x (s.onLine (fun l => { l with completed := none }))

/-- R176, R177: a byte has been on the line: the quiet count starts again from 0, and a hold byte that was
being held is over. A completed frame has been disposed of before (log entry 18). -/
def byteOnLine (s : State) : State :=
  (frameComplete s).onLine (fun l => { l with quiet := 0, holdDrive := false })

/-- R176: the receiver takes the data byte, or finds a framing error. -/
def receiverReads (levels : LineLevels) (s : State) : State :=
  if stopGood levels then readByte (dataByte levels) s else framingError s

/-- R176: the ten levels sampled after a change to dominant. A start bit that reads recessive was not a
start, and the change is ignored; the quiet count stays as it is too (log entry 30). The sender's comparison
is made bit by bit, before the byte's end. -/
def byteReceived (levels : LineLevels) (s : State) : State :=
  if falseStart levels then s else receiverReads levels (senderReads levels (byteOnLine s))

/-! ### Quiet and silence (R177, R183) -/

/-- R183: the silence falls inside the hold section: a hold byte has been read as held, and the section
has not ended. Directly after LEN no hold byte has been sent, and the sender was not held out but stopped
in LEN (log entry 32). -/
def Assembly.silentInHold (a : Assembly) : Bool := a.inHold && a.heldRead

/-- R183: a frame in assembly is dropped for silence, counted unless the silence fell in the hold
section; the assembler turns to SEEKING from every state. -/
def dropForSilence (s : State) : State :=
  if s.line.assembler = .assembling ∧ s.line.assembly.silentInHold = false then breakFrame .seeking s
  else s.onLine (Line.turnTo .seeking)

/-- R177, R183: a further quiet interval of 2 byte times has passed; the count grows to 4 at most
(log entry 9). A completed frame has been disposed of before (log entry 18). None passes while this
station's own frame is on the line (log entry 2). -/
def lineQuiet (s : State) : State :=
  if s.line.sending.isSome then s
  else dropForSilence ((frameComplete s).onLine (fun l => { l with quiet := min 4 (l.quiet + 2) }))

/-! ### Attempts (R184 to R188) -/

/-- R177, R190: this station may begin an attempt. -/
def mayStart (s : State) : Bool :=
  !s.listenOnly && s.line.sending.isNone &&
    decide ((if s.line.ownFrameWait then 4 else 2) ≤ s.line.quiet)

/-- R165: an Answer whose symbol is no longer held. -/
def lostAnswer (table : List QuoteRecord) (f : TxFrame) : Bool :=
  match f.payload with
  | .answer _ _ sym => (findRecord sym table).isNone
  | _ => false

/-- R178: this station's number as the ORIGIN byte of its frames. -/
def State.originByte (s : State) : Byte := BitVec.ofNat 8 (s.straps.station.getD 0)

/-- R177, R178, R184: an attempt begins with the frame at the head of a queue, stamped. -/
def beginAttempt (q : QueueId) (f : TxFrame) (s : State) : State :=
  s.onLine (fun l => { l with
    sending := some { queue := q, cls := f.payload.cls,
                      frame := ⟨f.dest, s.originByte, stampedBody s f.payload⟩,
                      sent := 0, held := 0, holdOver := false }
    ownFrameWait := false
    quiet := 0 })

/-- R165, R184: the general queue at the start of an attempt: Answers at its head whose symbol is no
longer held are withdrawn. -/
def withoutLostAnswers (s : State) : State :=
  s.onLine (fun l => { l with generalQueue := l.generalQueue.dropWhile (lostAnswer s.table) })

/-- R184: an attempt begins with the head of the general queue, if it holds a frame. -/
def attemptGeneral (s : State) : State :=
  match s.line.generalQueue with
  | f :: _ => beginAttempt .general f s
  | [] => s

/-- R184: an attempt begins: the tape queue's head if it holds a frame, else the general queue's. -/
def attemptStart (s : State) : State :=
  if mayStart s then
    match s.line.tapeQueue with
    | f :: _ => beginAttempt .tape f s
    | [] => attemptGeneral (withoutLostAnswers s)
  else s

/-- R185: the attempt in progress is lost, outside HOLD and before its last byte has gone out. -/
def arbitrationLoss (s : State) : State :=
  match s.line.sending with
  | some x => if x.canLose then loseAttempt x.queue s else s
  | none => s

/-- R187: 24 hold bytes in a row have been read as held: the attempt is held out. -/
def holdOut (s : State) : State :=
  match s.line.sending with
  | some x => if x.heldOut then failAttempt x.queue s else s
  | none => s

/-- R188: the 16th failed attempt of the frame on the line abandons it: outside HOLD a loss, which counts
(R185), in HOLD a hold-out (R187). Nothing is due while fewer than 15 have failed, or where the attempt can
neither be lost nor is held out (log entries 2 and 17). -/
def abandonFrame (s : State) : State :=
  match s.line.sending with
  | some x =>
    if abandonsHead (s.line.queue x.queue) then
      if x.canLose then loseAttempt x.queue s
      else if x.heldOut then failAttempt x.queue s
      else s
    else s
  | none => s

/-- R188: the attempt in progress completes once its CHECK byte has gone out: the frame leaves its queue
and the own-frame wait is set. -/
def attemptComplete (s : State) : State :=
  match s.line.sending with
  | some x =>
    if x.allSent then
      (offLine (s.onQueue x.queue List.tail)).onLine (fun l => { l with ownFrameWait := true })
    else s
  | none => s

/-! ### Holds (R186) -/

/-- R186: this station holds the hold byte that begins. -/
def holdsByte (s : State) : Bool :=
  decide (s.line.assembler = .assembling) && s.line.assembly.inHold &&
    s.concerns (byteAt s.line.assembly.bytes 0) &&
    ((s.line.assembly.cls.bind classOf).isSome) && !s.listenOnly && s.line.sending.isNone &&
    !slotFree s

/-- R186: a hold byte begins: held or not, the hold counted once for each frame. -/
def holdByte (s : State) : State :=
  if holdsByte s then
    (if s.line.holding then s else s.count .holdsAsserted).onLine
      (fun l => { l with holding := true, holdDrive := true })
  else s.onLine (fun l => { l with holdDrive := false })

/-! ### Dispatch (R192) -/

/-- R192: the oldest slot is freed; the handler may then take the other slot's frame. -/
def freeSlot (s : State) : State :=
  s.onLine (fun l => { l with slots := l.slots.tail, dispatching := false })

/-- R192: the dispatch in progress ends and its slot is freed; none is in progress, nothing ends. -/
def dispatchEnd (s : State) : State := if s.line.dispatching then freeSlot s else s

/-! ### The commands -/

/-- BYTE_RECEIVED (R176; R178 to R181, R185, R187, R207). -/
def execByteReceived (bits : BitVec 9) (stop : BitVec 1) (s : State) :
    Host.Outcome State Fault Refusal :=
  inService s (byteReceived (stop ++ bits))

/-- LINE_QUIET (R183; R177, R195). -/
def execLineQuiet (s : State) : Host.Outcome State Fault Refusal := inService s lineQuiet

/-- ATTEMPT_START (R184; R110, R165, R177, R189). -/
def execAttemptStart (s : State) : Host.Outcome State Fault Refusal := inService s attemptStart

/-- ARBITRATION_LOSS (R185; R188). -/
def execArbitrationLoss (s : State) : Host.Outcome State Fault Refusal := inService s arbitrationLoss

/-- HOLD_BYTE (R186). -/
def execHoldByte (s : State) : Host.Outcome State Fault Refusal := inService s holdByte

/-- HOLD_OUT (R187; R188). -/
def execHoldOut (s : State) : Host.Outcome State Fault Refusal := inService s holdOut

/-- FRAME_ABANDONED (R188). -/
def execFrameAbandoned (s : State) : Host.Outcome State Fault Refusal := inService s abandonFrame

/-- ATTEMPT_COMPLETE (R188; R177). -/
def execAttemptComplete (s : State) : Host.Outcome State Fault Refusal := inService s attemptComplete

/-- FRAME_COMPLETE (R191; R166, R181, R182, R205). -/
def execFrameComplete (s : State) : Host.Outcome State Fault Refusal := inService s frameComplete

/-- DISPATCH_END (R192). -/
def execDispatchEnd (s : State) : Host.Outcome State Fault Refusal := inService s dispatchEnd

end Sys2Proof.Machine
end

