-- ==== Sys2Proof/Machine/Messages.lean ====
section
/-!
DEFINITION. The frame handler: which frames are taken, refused or ignored (R192 to R194), and the
thirteen message commands (log entry 8).
-/
namespace Sys2Proof.Machine

/-! ### The frame that is dispatched (R192) -/

/-- R192: the frame handler can take this frame now: no dispatch is in progress, and the oldest receive
slot holds the frame. -/
def State.offers (s : State) (c : MsgClass) (f : Frame) : Bool :=
  !s.line.dispatching && s.line.slots.head? == some ⟨c, f⟩

/-- R192: the oldest slot's frame has been taken, and its dispatch goes on until DISPATCH_END. -/
def beginDispatch (s : State) : State := s.onLine (fun l => { l with dispatching := true })

/-- R192 to R194: the handling of the frame that the oldest slot holds; a command for any other frame is
not due (log entries 2 and 8). A frame that its row does not list is ignored; one that it lists and that
fails its checks is refused and counted; both free their slot at once. One that passes is handed to its
blocks, and its slot is freed at DISPATCH_END. -/
def handled (c : MsgClass) (f : Frame) (listed : Bool) (effect : Option (State → State)) (s : State) :
    State :=
  if s.offers c f then
    if listed then
      match effect with
      | none => freeSlot (s.count .framesDiscarded)
      | some g => g (beginDispatch s)
    else freeSlot s
  else s

/-! ### Tally Query (R203, R204) -/

/-- R203, R204: the Tally reply joins the general queue, fixed as the tallies stand. -/
def queueTally (origin : Byte) (s : State) : State :=
  s.appendGeneral origin (.tally s.statusByte s.tallies.report)

/-- R203: a taken Tally Query from a station, with its clear flag. -/
def takeTallyQuery (origin : Byte) (clear : Bool) (s : State) : State :=
  if s.generalFull then s.count .framesAbandoned
  else if clear then (queueTally origin s).withTallies Tallies.zero
  else queueTally origin s

/-! ### What each message does to the blocks (R193) -/

/-- Print: the table and its cells, the inquiry unit, and the composer. -/
def applyPrint (m : PrintMsg) (s : State) : State := composerPrint m (firePrint m (tablePrint m s))

/-- Status: the table and its cells, and the composer. -/
def applyStatus (m : StatusMsg) (s : State) : State :=
  composerStatus m (setRecordState m.symbol m.state s)

/-- Cancel: the table and the composer. -/
def applyCancel (m : CancelMsg) (s : State) : State := composerCancel m (tableCancel m s)

/-- R90, R193: a Handoff that passes its checks; a head refuses it after them. -/
def handoffEffect (f : Frame) (s : State) : Option (State → State) :=
  match readHandoff f with
  | some m => if s.isHead then none else some (takeHandoff m)
  | none => none

/-- R163, R193: an Ask is taken when addressed to the whole floor by another station. -/
def takesAsk (f : Frame) (s : State) : Bool := f.dest == 0 && !s.isOwnNumber f.origin

/-! ### Day Start at the blocks (R42, R44, R88, R116, R156, R175, R196) -/

/-- R44: a cell after Day Start. -/
def CellRecord.dayStart (c : CellRecord) : CellRecord := CellRecord.atReset c.number

/-- R116: the crawl unit after Day Start; `head` says whether the segment is a ribbon's head. The rule
starts a head's counter from 0; that of another crawl unit, whose timers are stopped, is set to 0 as well
(DESIGN CHOICE, log entry 34). -/
def Crawl.dayStart (head : Bool) (c : Crawl) : Crawl :=
  { c with
    segState := if c.segState = .dark then .dark else if head then .running else .waiting
    stepCount := 0
    paceLevel := 0
    counter := 0
    period := 1920
    staged := none
    slew := 0
    phase := 0
    paceHeard := false
    silence := none
    hold := []
    pendingPace := false }

/-- R156, R175: an active terminal after Day Start: the debounce state, the ghost lock, the beeper and
the display are kept. -/
def Terminal.dayStart (m : Terminal) : Terminal :=
  { Terminal.atReset with
    debounce := m.debounce
    ghostLock := m.ghostLock
    beeper := m.beeper
    beeperOn := m.beeperOn
    display := m.display }

/-- R156: Day Start at terminal t, if it is active. -/
def resetTerminal (t : Fin 4) (s : State) : State :=
  if s.active t then s.onTerm t Terminal.dayStart else s

/-- R156: Day Start at every terminal. -/
def resetTerminals (s : State) : State :=
  resetTerminal 3 (resetTerminal 2 (resetTerminal 1 (resetTerminal 0 s)))

/-- R196: both transmit queues are flushed, except the frame on the line. -/
def flushQueues (s : State) : State :=
  s.onLine (fun l => { l with
    tapeQueue := if s.sendingTape then l.tapeQueue.take 1 else []
    generalQueue := if s.sendingGeneral then l.generalQueue.take 1 else [] })

/-- R110, R116: a head requests a Pace mark, since T is 0. -/
def requestAtZero (s : State) : State := if s.isHead then requestPace s else s

/-- R201: a taken Day Start at every block; the head's mark is queued in the flushed queue (R196). -/
def dayStart (s : State) : State :=
  requestAtZero
    ((flushQueues (resetTerminals (((s.withTable []).withCells
      (s.cells.map CellRecord.dayStart)).withComposer Composer.atReset))).onCrawl
      (Crawl.dayStart s.isHead))

/-! ### The commands -/

/-- PRINT (R28; R2 to R7, R27 to R30, R54, R57, R59, R65, R66, R172, R173, R194). -/
def execPrint (f : Frame) (s : State) : Host.Outcome State Fault Refusal :=
  inService s (handled .print f (f.dest == 0) ((readPrint f).map applyPrint))

/-- QUOTE (R31; R194). -/
def execQuote (f : Frame) (s : State) : Host.Outcome State Fault Refusal :=
  inService s (handled .quote f (f.dest == 0) ((readQuote f).map tableQuote))

/-- STATUS (R32; R58, R67, R194). -/
def execStatus (f : Frame) (s : State) : Host.Outcome State Fault Refusal :=
  inService s (handled .status f (f.dest == 0) ((readStatus f).map applyStatus))

/-- CANCEL (R33; R34, R68, R194). -/
def execCancel (f : Frame) (s : State) : Host.Outcome State Fault Refusal :=
  inService s (handled .cancel f (f.dest == 0) ((readCancel f).map applyCancel))

/-- PLAN (R37; R21 to R23, R35, R36, R38, R60, R194). -/
def execPlan (f : Frame) (s : State) : Host.Outcome State Fault Refusal :=
  inService s
    (handled .plan f (s.isOwnNumber f.dest) ((readPlan s.straps.board f).map tablePlan))

/-- DAY_START (R201; R42, R44, R88, R116, R156, R175, R196). -/
def execDayStart (f : Frame) (s : State) : Host.Outcome State Fault Refusal :=
  inService s
    (handled .dayStart f (f.dest == 0 || s.isOwnNumber f.dest)
      ((readDayStart f).map (fun _ => dayStart)))

/-- ASK (R163; R164, R194). -/
def execAsk (f : Frame) (s : State) : Host.Outcome State Fault Refusal :=
  inService s (handled .ask f (takesAsk f s) ((readAsk f).map (takeAsk f.origin)))

/-- ANSWER (R162; R39, R40, R140, R161, R194). An Answer to another station is ANSWER_SNOOP's. -/
def execAnswer (f : Frame) (s : State) : Host.Outcome State Fault Refusal :=
  inService s (fun s =>
    if s.isOtherStation f.dest then s
    else handled .answer f (s.isOwnNumber f.dest) ((readAnswer f).map takeAnswer) s)

/-- ANSWER_SNOOP (R166; R189, R194). Any other Answer is ANSWER's. -/
def execAnswerSnoop (f : Frame) (s : State) : Host.Outcome State Fault Refusal :=
  inService s (fun s =>
    if s.isOtherStation f.dest then
      handled .answer f true ((readAnswer f).map (suppress f.dest)) s
    else s)

/-- HANDOFF (R100; R90, R91, R101 to R109, R194). -/
def execHandoff (f : Frame) (s : State) : Host.Outcome State Fault Refusal :=
  inService s (handled .handoff f (s.isOwnSegment f.dest) (handoffEffect f s))

/-- PACE (R112; R91, R105 to R108, R111, R113, R114, R194). -/
def execPace (f : Frame) (s : State) : Host.Outcome State Fault Refusal :=
  inService s (handled .pace f (f.dest == 0) ((readPace f).map crawlPace))

/-- TALLY_QUERY (R203; R194, R202, R204). -/
def execTallyQuery (f : Frame) (s : State) : Host.Outcome State Fault Refusal :=
  inService s
    (handled .tallyQuery f (s.isOwnNumber f.dest) ((readTallyQuery f).map (takeTallyQuery f.origin)))

/-- TALLY (R193): dispatched to no block. -/
def execTally (f : Frame) (s : State) : Host.Outcome State Fault Refusal :=
  inService s (handled .tally f false none)

end Sys2Proof.Machine
end

