-- ==== Sys2Proof/Machine/Startup.lean ====
section
/-!
DEFINITION. The reset pin and the straps (section 10.1), and the state at the pin's release
(section 10.2).
-/
namespace Sys2Proof.Machine

/-! ### The straps (R198, R199) -/

/-- R198: station 0 and 63 are listen-only. -/
def stationOf (v : BitVec 6) : Option Nat :=
  if v.toNat = 0 ∨ v.toNat = 63 then none else some v.toNat

/-- R176, R198: the bit time in timer clocks; rate 3 is taken as rate 1. -/
def bitTimeOf (v : BitVec 2) : Nat :=
  match v.toNat with
  | 0 => 4
  | 1 => 2
  | 2 => 1
  | _ => 2

/-- R198: ribbon 0 to 3 for 1 to 4, none otherwise. -/
def ribbonOf (v : BitVec 3) : Option (Fin 4) :=
  match v.toNat with
  | 1 => some 0
  | 2 => some 1
  | 3 => some 2
  | 4 => some 3
  | _ => none

/-- R198: the straps as read, substitutions made. -/
def readStraps (p : StrapPins) : Straps :=
  { station := stationOf p.station
    bitTime := bitTimeOf p.rate
    ribbon := ribbonOf p.ribbon
    segment := p.segment.toNat
    tail := p.tail == 1
    width := 48 + 24 * p.width.toNat
    terminals := min 4 p.terminals.toNat
    board := p.board == 1
    budget := 1024 * (p.budget.toNat + 1) }

/-! ### Reset asserted (R197) -/

/-- R197: a terminal's outputs while the pin is asserted. -/
def Terminal.silenced (m : Terminal) : Terminal :=
  { m with beeperOn := false, display := Display.blank }

/-- R197: the lamp driver's outputs while the pin is asserted. -/
def LampDriver.darkened (l : LampDriver) : LampDriver :=
  { l with image := List.replicate 16 CellLamps.dark,
           window := List.replicate l.window.length none, result := none }

/-- R197: the line is released. -/
def Line.released (l : Line) : Line := { l with sending := none, holdDrive := false }

/-- s with the reset pin asserted. -/
def State.withReset (s : State) : State := { s with resetAsserted := true }

/-- R197: the reset pin is asserted: outputs off, the attempt stopped, the fault lamp lit. -/
def assertReset (s : State) : State :=
  ((((s.withReset.withLamps s.lamps.darkened).withTerminals
    (s.terminals.map Terminal.silenced)).withLine s.line.released).withSilence s.lineSilence true)

/-! ### The release of the pin (R200) -/

/-- R115: the crawl unit at power-on reset, by role. -/
def Crawl.powerOn (p : Straps) : Crawl :=
  match p.ribbon with
  | none => Crawl.atReset
  | some _ =>
    if p.segment = 0 then { Crawl.atReset with segState := .running, offset := some 0 }
    else { Crawl.atReset with segState := .waiting }

/-- R133: the lamp driver at power-on reset. -/
def LampDriver.powerOn (p : Straps) : LampDriver :=
  { warmUp := 0, effective := budgetAt p.budget 0, image := List.replicate 16 CellLamps.dark,
    window := List.replicate p.width none, result := none }

/-- R200: every block's power-on state under the straps, but for the head's first Pace request. The
commands that wait are kept. -/
def State.powerOn (p : Straps) (s : State) : State :=
  { State.reset with
    straps := p
    crawl := Crawl.powerOn p
    lamps := LampDriver.powerOn p
    line := Line.atReset p.bitTime
    pending := s.pending }

/-- R197, R198, R200: the pin is released: the straps are sampled and every block starts; a head
requests its Pace mark at T = 0 (R115). -/
def powerOnReset (pins : StrapPins) (s : State) : State :=
  requestAtZero (s.powerOn (readStraps pins))

/-! ### The commands -/

/-- RESET_ASSERT (R197). -/
def execResetAssert (s : State) : Host.Outcome State Fault Refusal := .next (assertReset s)

/-- POWER_ON_RESET (R200; R41, R44, R87, R89, R115, R123, R133, R155, R175, R195, R197 to R199,
R205). -/
def execPowerOnReset (pins : StrapPins) (s : State) : Host.Outcome State Fault Refusal :=
  .next (powerOnReset pins s)

end Sys2Proof.Machine
end

