-- ==== Sys2Proof/Machine/Dispatch.lean ====
section
/-!
DEFINITION. The one match from a command to its meaning, in the order of spec/opcode_table.json.
-/
namespace Sys2Proof.Machine

/-- A command's effect on everything but the queue. -/
def exec (i : Instr) (s : State) : Host.Outcome State Fault Refusal :=
  match i with
  | .resetAssert => Sys2Proof.Machine.execResetAssert s
  | .powerOnReset pins => Sys2Proof.Machine.execPowerOnReset pins s
  | .floorTick => Sys2Proof.Machine.execFloorTick s
  | .patternEnd cell => Sys2Proof.Machine.execPatternEnd cell s
  | .refreshFrame raw0 raw1 raw2 raw3 => Sys2Proof.Machine.execRefreshFrame raw0 raw1 raw2 raw3 s
  | .debounceChange t pos => Sys2Proof.Machine.execDebounceChange t pos s
  | .letterKey t letter => Sys2Proof.Machine.execLetterKey t letter s
  | .digitKey t digit => Sys2Proof.Machine.execDigitKey t digit s
  | .quoteKey t => Sys2Proof.Machine.execQuoteKey t s
  | .clearKey t => Sys2Proof.Machine.execClearKey t s
  | .rubKey t => Sys2Proof.Machine.execRubKey t s
  | .watchKey t => Sys2Proof.Machine.execWatchKey t s
  | .unwatchKey t => Sys2Proof.Machine.execUnwatchKey t s
  | .nextKey t => Sys2Proof.Machine.execNextKey t s
  | .limitKey t => Sys2Proof.Machine.execLimitKey t s
  | .fractionKey t => Sys2Proof.Machine.execFractionKey t s
  | .beeperExpiry t => Sys2Proof.Machine.execBeeperExpiry t s
  | .messageExpiry t => Sys2Proof.Machine.execMessageExpiry t s
  | .warmUpPhase => Sys2Proof.Machine.execWarmUpPhase s
  | .lineSilenceTimeout => Sys2Proof.Machine.execLineSilenceTimeout s
  | .crawlStep => Sys2Proof.Machine.execCrawlStep s
  | .pendingPaceQueued => Sys2Proof.Machine.execPendingPaceQueued s
  | .print f => Sys2Proof.Machine.execPrint f s
  | .quote f => Sys2Proof.Machine.execQuote f s
  | .status f => Sys2Proof.Machine.execStatus f s
  | .cancel f => Sys2Proof.Machine.execCancel f s
  | .plan f => Sys2Proof.Machine.execPlan f s
  | .dayStart f => Sys2Proof.Machine.execDayStart f s
  | .ask f => Sys2Proof.Machine.execAsk f s
  | .answer f => Sys2Proof.Machine.execAnswer f s
  | .answerSnoop f => Sys2Proof.Machine.execAnswerSnoop f s
  | .handoff f => Sys2Proof.Machine.execHandoff f s
  | .pace f => Sys2Proof.Machine.execPace f s
  | .tallyQuery f => Sys2Proof.Machine.execTallyQuery f s
  | .tally f => Sys2Proof.Machine.execTally f s
  | .printTake => Sys2Proof.Machine.execPrintTake s
  | .cancelTake => Sys2Proof.Machine.execCancelTake s
  | .statusTake => Sys2Proof.Machine.execStatusTake s
  | .idleTimerExpiry => Sys2Proof.Machine.execIdleTimerExpiry s
  | .idleDecay => Sys2Proof.Machine.execIdleDecay s
  | .silenceCoasting => Sys2Proof.Machine.execSilenceCoasting s
  | .silenceWaiting => Sys2Proof.Machine.execSilenceWaiting s
  | .askTimeout t => Sys2Proof.Machine.execAskTimeout t s
  | .byteReceived bits stop => Sys2Proof.Machine.execByteReceived bits stop s
  | .lineQuiet => Sys2Proof.Machine.execLineQuiet s
  | .attemptStart => Sys2Proof.Machine.execAttemptStart s
  | .arbitrationLoss => Sys2Proof.Machine.execArbitrationLoss s
  | .holdByte => Sys2Proof.Machine.execHoldByte s
  | .holdOut => Sys2Proof.Machine.execHoldOut s
  | .frameAbandoned => Sys2Proof.Machine.execFrameAbandoned s
  | .attemptComplete => Sys2Proof.Machine.execAttemptComplete s
  | .frameComplete => Sys2Proof.Machine.execFrameComplete s
  | .dispatchEnd => Sys2Proof.Machine.execDispatchEnd s

end Sys2Proof.Machine
end

