-- ==== Sys2Proof/Safety.lean ====
section
/-!
DEFINITION. What counts as a safe step, and the invariants of the spec's prose that the statements are
about: sizes, the terminals' law, the counts' ranges, the table's and its pins' agreement with the
cells and the terminals, the roles on a ribbon, the lamp power, and the silence of a listen-only
station.
-/
namespace Sys2Proof.Machine

/-- A step is safe when it answers a next state: no command of a 316 stops it. -/
def Safe (s : State) : Prop := ∃ t, step s = .next t

/-- Terminal t can take a key at once: the part is in service, the terminal is active (R135), it is
not in ASKING, and no key waits (R139). -/
def takesKeys (t : Fin 4) (s : State) : Prop :=
  s.resetAsserted = false ∧ s.active t = true ∧ (s.term t).state ≠ .asking ∧ (s.term t).keyQueue = []

/-- The command that presses a key at terminal t. -/
def keyCommand (t : Fin 4) : Key → Instr
  | .letter l => .letterKey t l
  | .digit d => .digitKey t d
  | .quote => .quoteKey t
  | .clear => .clearKey t
  | .rub => .rubKey t
  | .watch => .watchKey t
  | .unwatch => .unwatchKey t
  | .next => .nextKey t
  | .limit => .limitKey t
  | .fraction => .fractionKey t

/-- R145, R148, R151: the keys a state refuses whatever else it holds. -/
def refuses (st : TermState) (k : Key) : Bool :=
  match st, k with
  | .keying, .digit _ => true
  | .keying, .watch => true
  | .keying, .unwatch => true
  | .keying, .next => true
  | .keying, .limit => true
  | .keying, .fraction => true
  | .showing, .digit _ => true
  | .showing, .rub => true
  | .showing, .fraction => true
  | .limitEntry, .letter _ => true
  | .limitEntry, .watch => true
  | .limitEntry, .unwatch => true
  | .limitEntry, .next => true
  | .limitEntry, .limit => true
  | _, _ => false

/-- A terminal after a reject beep (R141). -/
def Terminal.rejected (m : Terminal) : Terminal :=
  { m with beeper := max m.beeper 2, beeperOn := true }

/-- One outcome after another: f goes on from the next state of o. -/
def thenRun (o : Host.Outcome State Fault Refusal) (f : State → Host.Outcome State Fault Refusal) :
    Host.Outcome State Fault Refusal :=
  match o with
  | .next t => f t
  | .fault x => .fault x
  | .refused x => .refused x

/-- Keys pressed one after another at terminal t. -/
def keysInTurn (t : Fin 4) : List Key → State → Host.Outcome State Fault Refusal
  | [], s => .next s
  | k :: ks, s => thenRun (exec (keyCommand t k) s) (keysInTurn t ks)

/-! ### The key scan (R136 to R139) -/

/-- R138: the ghost lock of a terminal after a scan: set with 3 or more positions down, cleared with 1 or
none, and else as it was. The four positions with no switch read up (R210). -/
def lockAtScan (raw : BitVec 48) (m : Terminal) : Bool :=
  if 3 ≤ ((List.range 44).filter (fun p => raw.getLsbD p)).length then true
  else if 2 ≤ ((List.range 44).filter (fun p => raw.getLsbD p)).length then m.ghostLock
  else false

/-- R137: the debounce of one position after a scan that reads it as `raw`. -/
def debounceAtScan (raw : Bool) (d : Debounce) : Debounce :=
  if raw = d.down then ⟨d.down, 0⟩
  else if d.count < 2 then ⟨d.down, d.count + 1⟩
  else ⟨raw, 0⟩

/-- R137, R210: the debounce state after a scan, position by position. -/
def debouncesAtScan (raw : BitVec 48) (m : Terminal) : List Debounce :=
  (List.zip (List.range 48) m.debounce).map
    (fun x => debounceAtScan (decide (x.1 < 44) && raw.getLsbD x.1) x.2)

/-- R138, R139: the keys a scan produces, in rising order of key code: one for each position that turns
from up to down, none while the ghost lock is set. -/
def keysAtScan (raw : BitVec 48) (m : Terminal) : List Key :=
  if lockAtScan raw m then []
  else (List.range 44).filterMap (fun p =>
    match m.debounce[p]?, (debouncesAtScan raw m)[p]? with
    | some old, some new => if old.down = false ∧ new.down = true then keyOfCode p else none
    | _, _ => none)

/-- R136 to R139: one scan of terminal t's matrix, its keys pressed in turn. -/
def scanInTurn (t : Fin 4) (raw : BitVec 48) (s : State) : Host.Outcome State Fault Refusal :=
  if s.active t then
    keysInTurn t (keysAtScan raw (s.term t)) (s.setTerm t { s.term t with
      ghostLock := lockAtScan raw (s.term t), debounce := debouncesAtScan raw (s.term t) })
  else .next s

/-! ### Frames dispatched (R192 to R194) -/

/-- R192: the frame handler can take this frame: the part is in service, no dispatch is in progress, and
the oldest receive slot holds the frame. -/
def State.canTake (s : State) (c : MsgClass) (f : Frame) : Prop :=
  s.resetAsserted = false ∧ s.line.dispatching = false ∧ s.line.slots.head? = some ⟨c, f⟩

/-- R192: s with a dispatch in progress: its frame's slot stays taken until DISPATCH_END. -/
def State.dispatched (s : State) : State := { s with line := { s.line with dispatching := true } }

/-- R192: s with the oldest slot freed and no dispatch in progress. -/
def State.slotFreed (s : State) : State :=
  { s with line := { s.line with slots := s.line.slots.tail, dispatching := false } }

/-- R194: s with the oldest slot's frame refused: counted, and its slot freed. -/
def State.frameRefused (s : State) : State :=
  { s.slotFreed with
    tallies := { s.tallies with framesDiscarded := saturate s.tallies.framesDiscarded } }

/-- The command that takes a frame of a class (an Answer to this station). -/
def messageCommand (c : MsgClass) (f : Frame) : Instr :=
  match c with
  | .print => .print f
  | .quote => .quote f
  | .status => .status f
  | .cancel => .cancel f
  | .plan => .plan f
  | .dayStart => .dayStart f
  | .ask => .ask f
  | .answer => .answer f
  | .handoff => .handoff f
  | .pace => .pace f
  | .tallyQuery => .tallyQuery f
  | .tally => .tally f

/-- R193: the frame handler hands a frame of this class to a block. -/
def State.listsFrame (s : State) (c : MsgClass) (f : Frame) : Prop :=
  match c with
  | .print => f.dest = 0
  | .quote => f.dest = 0
  | .status => f.dest = 0
  | .cancel => f.dest = 0
  | .plan => s.isOwnNumber f.dest = true
  | .dayStart => f.dest = 0 ∨ s.isOwnNumber f.dest = true
  | .ask => f.dest = 0 ∧ s.isOwnNumber f.origin = false
  | .answer => s.isOwnNumber f.dest = true
  | .handoff => s.isOwnSegment f.dest = true
  | .pace => f.dest = 0
  | .tallyQuery => s.isOwnNumber f.dest = true
  | .tally => False

/-- R206: a two-byte field of a body, least significant byte first. -/
def field16 (b : List Byte) (i : Nat) : Nat := (byteAt b i).toNat + 256 * (byteAt b (i + 1)).toNat

/-- R4: a symbol field: 1 to 4 letters (codes 1 to 26) in the leading places, spaces (0) in the rest. -/
def symbolOk (b : List Byte) (i : Nat) : Prop :=
  ∃ last : Fin 4, ∀ k : Fin 4,
    (k ≤ last → 1 ≤ (byteAt b (i + k.val)).toNat ∧ (byteAt b (i + k.val)).toNat ≤ 26) ∧
    (last < k → byteAt b (i + k.val) = 0)

/-- R1: a price field that holds a valid price. -/
def priceOk (b : List Byte) (i : Nat) : Prop := 1 ≤ field16 b i ∧ field16 b i ≤ 32767

/-- R2 to R5, R35, R100, R111, R161, R163, R201, R203, R208: the bodies that pass the checks of their
class, at a station with or without a board. -/
def bodyOk (board : Bool) (c : MsgClass) (b : List Byte) : Prop :=
  match c with
  | .print => b.length = 12 ∧ (byteAt b 3).toNat ≤ 2 ∧ symbolOk b 4 ∧ priceOk b 8
  | .quote => b.length = 8 ∧ symbolOk b 0 ∧ field16 b 4 ≤ 32767 ∧ field16 b 6 ≤ 32767
  | .status => b.length = 6 ∧ symbolOk b 0 ∧ (byteAt b 5).toNat ≤ 3
  | .cancel => b.length = 12 ∧ symbolOk b 4 ∧ priceOk b 8
  | .plan => b.length = 7 ∧ board = true ∧ (byteAt b 0).toNat ≤ 15 ∧
      (symbolOk b 1 ∨ ∀ k : Fin 4, byteAt b (1 + k.val) = 0) ∧ field16 b 5 ≤ 32767
  | .dayStart => b = []
  | .ask => b.length = 6 ∧ (byteAt b 0).toNat ≤ 3 ∧ symbolOk b 2
  | .answer => b.length = 19 ∧ (byteAt b 0).toNat ≤ 3 ∧ symbolOk b 2 ∧ (byteAt b 18).toNat ≤ 3 ∧
      ((byteAt b 6).getLsbD 0 = true → priceOk b 7) ∧
      ((byteAt b 6).getLsbD 1 = true → priceOk b 9 ∧ (byteAt b 11).toNat ≤ 4) ∧
      ((byteAt b 6).getLsbD 2 = true → priceOk b 14) ∧
      ((byteAt b 6).getLsbD 3 = true → priceOk b 16)
  | .handoff => 1 ≤ (byteAt b 2).toNat ∧ (byteAt b 2).toNat ≤ 4 ∧
      b.length = 6 + 5 * (byteAt b 2).toNat
  | .pace => b.length = 6 ∧ (byteAt b 0).toNat ≤ 3 ∧ (byteAt b 1).toNat ≤ 3 ∧
      byteAt b 2 = byteAt b 1
  | .tallyQuery => b.length = 1
  | .tally => True

/-! ### Bytes on the line (R176) -/

/-- The command that brings ten sampled levels. -/
def levelsCommand (levels : LineLevels) : Instr :=
  .byteReceived (levels.setWidth 9) (levels.extractLsb' 9 1)

/-- The command that brings a byte as its sender drives it. -/
def byteCommand (b : Byte) : Instr := levelsCommand (lineLevels b)

/-- R177, R186: s after a byte on the line: no quiet, and no hold byte held. -/
def State.afterByte (s : State) : State :=
  { s with line := { s.line with quiet := 0, holdDrive := false } }

/-- R179: s after a byte that leaves the frame in assembly as given. -/
def State.assembled (s : State) (a : Assembly) : State :=
  { s with line := { s.line with quiet := 0, holdDrive := false, assembly := a } }

/-- R179: s after a byte that turns the assembler to a state with no hold asserted. -/
def State.turned (s : State) (next : AsmState) (a : Assembly) : State :=
  { s with line := { s.line with quiet := 0, holdDrive := false, holding := false, assembler := next,
                                 assembly := a } }

/-- R179: s with the frame in assembly counted as discarded, unless its ORIGIN has been read as this
station's own number. -/
def State.brokenCounted (s : State) : State :=
  if 3 ≤ s.line.assembly.bytes.length ∧ s.isOwnNumber (byteAt s.line.assembly.bytes 2) = true then s
  else { s with
    tallies := { s.tallies with framesDiscarded := saturate s.tallies.framesDiscarded } }

/-! ### Sizes (R64, R81, R99, R184, R191) -/

/-- Every queue and list of the line interface, the composer and the crawl unit is within its size, and a
dispatch in progress has its frame's slot (R192). -/
def withinCapacity (s : State) : Prop :=
  s.line.tapeQueue.length ≤ Config.tapeQueueSize ∧
  s.line.generalQueue.length ≤ Config.generalQueueSize ∧
  s.line.slots.length ≤ Config.slotCount ∧
  (s.line.dispatching = true → s.line.slots ≠ []) ∧
  s.composer.printQueue.length ≤ Config.printQueueSize ∧
  s.composer.recent.length ≤ Config.recentSize ∧
  s.crawl.hold.length ≤ Config.holdSize

/-! ### Terminals (R139, R145, R148, R151, R158, R168, R173) -/

/-- The law of one terminal: an ask is outstanding exactly in ASKING, a symbol is shown exactly in
SHOWING and LIMIT ENTRY, keys wait only in ASKING, and every list is within its size. -/
def Terminal.wellKept (m : Terminal) : Prop :=
  (m.ask.isSome ↔ m.state = .asking) ∧
  (m.shown.isSome ↔ m.state = .showing ∨ m.state = .limitEntry) ∧
  (m.state ≠ .asking → m.keyQueue = []) ∧
  m.keyQueue.length ≤ Config.keyQueueSize ∧
  m.entry.length ≤ 4 ∧ m.whole.length ≤ 4 ∧
  m.watch.length ≤ Config.watchSize ∧ m.alerts.length ≤ Config.alertSize

/-- The law holds at all four terminals. -/
def terminalsWellKept (s : State) : Prop := ∀ t : Fin 4, (s.term t).wellKept

/-! ### Counts (R202, R205) -/

/-- The tallies and the line-silence timer are in range, and the fault lamp is lit exactly while the
timer stands at 80 or the reset pin is asserted. -/
def countsInRange (s : State) : Prop :=
  (∀ k : Tally, s.tallies.get k ≤ Config.tallyMax) ∧ s.lineSilence ≤ 80 ∧
  (s.faultLamp = true ↔ s.lineSilence = 80 ∨ s.resetAsserted = true)

/-! ### The table (R20, R23, R24) -/

/-- R20: no two records have one symbol. -/
def symbolsDistinct (s : State) : Prop := (s.table.map QuoteRecord.symbol).Nodup

/-- The sixteen cells stand in order. -/
def cellsNumbered (s : State) : Prop := s.cells.map CellRecord.number = cellNumbers

/-- R23: a record's cell pins are the cells whose plan link names its symbol, and a linked symbol is
held. -/
def pinsFollowLinks (s : State) : Prop :=
  symbolsDistinct s ∧ cellsNumbered s ∧
  (∀ r ∈ s.table, ∀ c : Fin 16, c ∈ r.pins ↔ s.linkOf c = some r.symbol) ∧
  (∀ c : Fin 16, ∀ y : Symbol, s.linkOf c = some y → (findRecord y s.table).isSome)

/-- R24: the references a terminal has on a symbol: one for showing it, one for each watch entry. -/
def Terminal.refsOn (y : Symbol) (m : Terminal) : Nat :=
  (if m.shown = some y then 1 else 0) + (m.watch.filter (fun e => e.symbol == y)).length

/-- The references all four terminals have on a symbol. -/
def State.refsOn (s : State) (y : Symbol) : Nat :=
  (s.term 0).refsOn y + (s.term 1).refsOn y + (s.term 2).refsOn y + (s.term 3).refsOn y

/-- R24, R168: a record's terminal references are those the terminals have on it, a symbol with a
reference is held, watch lists have distinct symbols, and an inactive terminal is in IDLE with empty
lists. -/
def refsFollowTerminals (s : State) : Prop :=
  symbolsDistinct s ∧ terminalsWellKept s ∧
  (∀ r ∈ s.table, r.refs = s.refsOn r.symbol) ∧
  (∀ y : Symbol, 0 < s.refsOn y → (findRecord y s.table).isSome) ∧
  (∀ t : Fin 4, ((s.term t).watch.map WatchEntry.symbol).Nodup) ∧
  (∀ t : Fin 4, s.active t = false → (s.term t).state = .idle ∧ (s.term t).watch = [])

/-- R20, R25: the table holds at most 64 records, pinned as R23 and R24 give. -/
def tableWithinSize (s : State) : Prop :=
  s.table.length ≤ Config.tableSize ∧ pinsFollowLinks s ∧ refsFollowTerminals s

/-! ### Roles (R63, R72, R75, R89 to R92) -/

/-- The segment state, the offset, the slew and the silence timer agree with the station's place on a
ribbon. -/
def crawlByRole (s : State) : Prop :=
  (s.straps.ribbon = none → s.crawl.segState = .dark) ∧
  (s.isHead = true → s.crawl.segState = .running ∧ s.crawl.offset = some 0 ∧ s.crawl.slew = 0 ∧
    s.crawl.silence = none) ∧
  (s.straps.ribbon.isSome → s.straps.segment ≠ 0 → s.crawl.segState ≠ .dark) ∧
  (s.crawl.segState = .dark ∨ s.crawl.segState = .waiting → s.crawl.silence = none)

/-- At a head the pace level is the late-tape level, 0 to 3, and the idle timer runs exactly while the
print queue is empty. -/
def headLevelsAgree (s : State) : Prop :=
  s.isHead = true →
    s.crawl.paceLevel = s.composer.level ∧ s.composer.level ≤ 3 ∧
    (s.composer.idleTimer.isSome ↔ s.composer.printQueue = [])

/-! ### Lamp power (R123, R124, R128) -/

/-- The strapped budget is at least 1024, the effective budget is that of the warm-up count, and no
frame result draws more than its own effective budget, nor that more than the strapped budget. -/
def lampsWithinBudget (s : State) : Prop :=
  1024 ≤ s.straps.budget ∧ s.lamps.warmUp ≤ 64 ∧ s.lamps.effective = budgetAt s.straps.budget s.lamps.warmUp ∧
  (∀ r, s.lamps.result = some r → r.drawn ≤ r.bEff ∧ r.bEff ≤ s.straps.budget)

/-! ### Listen-only (R190) -/

/-- A listen-only station has nothing to send, sends nothing and holds nothing. -/
def listenOnlySilent (s : State) : Prop :=
  s.listenOnly = true →
    s.line.tapeQueue = [] ∧ s.line.generalQueue = [] ∧ s.line.sending = none ∧
    s.line.ownFrameWait = false ∧ s.line.holding = false ∧ s.line.holdDrive = false ∧
    s.crawl.pendingPace = false

/-! ### The tape hold (R99) -/

/-- R99: two neighbours of a hold: the index rises, and the entry columns lie 6 or more apart. -/
def neighbours (a b : TapeChar) : Prop := sdiff a.index b.index < 0 ∧ 6 ≤ sdiff b.entry a.entry

/-- R99: the law of a tape hold, between neighbours. -/
def holdLawful (hold : List TapeChar) : Prop := List.IsChain neighbours hold

/-- The indices and the entry columns of a hold lie within 2^22 of each other, from `index` and `entry`
on, so that signed differences among them order them. -/
def holdWithin (index entry : Col) (hold : List TapeChar) : Prop :=
  ∀ c ∈ hold, (c.index - index).toNat < 4194304 ∧ (c.entry - entry).toNat < 4194304

/-- R84, R85: at a head the next character composed follows the last one held. -/
def composerFollows (s : State) : Prop :=
  ∀ c, s.crawl.hold.getLast? = some c →
    sdiff c.index s.composer.nextIndex < 0 ∧
    6 ≤ sdiff (entryColumn s.crawl.stepCount s.composer.nextEntry) c.entry

/-- R85: the next entry column lies at most 2^22 ahead of the step count. -/
def nextEntryNear (s : State) : Prop :=
  ∀ e, s.composer.nextEntry = some e → sdiff e (s.crawl.stepCount + 1) ≤ 4194304

/-! ### Composition (R84, R85, R110) -/

/-- R84, R85: t holds the characters of a set behind those of s: consecutive indices from the next index,
unsent, the first at the next entry column or at T + 1, whichever is later, and each 6 columns after the
one before. -/
def composed (set : List (Glyph × Attr)) (s t : State) : Prop :=
  t.crawl.hold.take s.crawl.hold.length = s.crawl.hold ∧
  (t.crawl.hold.drop s.crawl.hold.length).map (fun c => (c.glyph, c.attr)) = set ∧
  t.composer.nextIndex = s.composer.nextIndex + BitVec.ofNat 24 set.length ∧
  (set = [] → t.composer.nextEntry = s.composer.nextEntry) ∧
  ∃ e : Col, (s.composer.nextEntry = none → e = s.crawl.stepCount + 1) ∧
    (∀ n, s.composer.nextEntry = some n →
      e = if 0 < sdiff n (s.crawl.stepCount + 1) then n else s.crawl.stepCount + 1) ∧
    (∀ i c, (t.crawl.hold.drop s.crawl.hold.length)[i]? = some c →
      c.index = s.composer.nextIndex + BitVec.ofNat 24 i ∧ c.sent = false ∧
      (i = 0 ∨ nextEntryNear s → c.entry = e + BitVec.ofNat 24 (6 * i))) ∧
    (set ≠ [] → nextEntryNear s →
      t.composer.nextEntry = some (e + BitVec.ofNat 24 (6 * set.length)))

/-- R72, R107, R110: t holds what a head's request for a Pace mark leaves of the general queue of s: no
request at a listen-only station, one met by a Pace that waits, one queued, or, the queue being full, one
pending. -/
def paceAsked (s t : State) : Prop :=
  ∀ r, s.straps.ribbon = some r → s.straps.segment = 0 →
    (s.listenOnly = true ∨
        (waitingFrames s.sendingGeneral s.line.generalQueue).any TxFrame.isPace = true →
      t.line.generalQueue = s.line.generalQueue ∧ t.crawl.pendingPace = s.crawl.pendingPace) ∧
    (s.listenOnly = false →
        (waitingFrames s.sendingGeneral s.line.generalQueue).any TxFrame.isPace = false →
      (s.line.generalQueue.length < 4 →
        t.line.generalQueue = s.line.generalQueue ++ [⟨0, .pace r, 0⟩] ∧
        t.crawl.pendingPace = false) ∧
      (4 ≤ s.line.generalQueue.length →
        t.line.generalQueue = s.line.generalQueue ∧ t.crawl.pendingPace = true))

/-! ### Placement (R102, R103) -/

/-- R102, R103: t is s after character c of a Handoff has been tested and placed. `lo` and `hi` are the
held characters below its index and from its index on. -/
def placesChar (c : TapeChar) (s t : State) : Prop :=
  ∃ lo hi : List TapeChar, s.crawl.hold = lo ++ hi ∧ (∀ k ∈ lo, sdiff k.index c.index < 0) ∧
    (∀ k, hi.head? = some k → 0 ≤ sdiff k.index c.index) ∧
    ((∃ k ∈ s.crawl.hold, k.index = c.index) ∨ (∃ p, lo.getLast? = some p ∧ sdiff c.entry p.entry < 6) ∨
        (∃ q, hi.head? = some q ∧ sdiff q.entry c.entry < 6) ∨ 48 ≤ s.crawl.hold.length →
      t = { s with tallies := { s.tallies with charsDropped := saturate s.tallies.charsDropped } }) ∧
    ((∀ k ∈ s.crawl.hold, k.index ≠ c.index) → (∀ p, lo.getLast? = some p → 6 ≤ sdiff c.entry p.entry) →
        (∀ q, hi.head? = some q → 6 ≤ sdiff q.entry c.entry) → s.crawl.hold.length < 48 →
      (s.moving = true → sdiff (c.entry + 5) s.leftCol < 0 → s.isTail = true →
        t = { s with tallies := { s.tallies with lateChars := saturate s.tallies.lateChars } }) ∧
      (s.moving = true → sdiff (c.entry + 5) s.leftCol < 0 → s.isTail = false →
        t = { s with
          crawl := { s.crawl with hold := lo ++ c :: hi }
          tallies := { s.tallies with lateChars := saturate s.tallies.lateChars } }) ∧
      (s.moving = false ∨ 0 ≤ sdiff (c.entry + 5) s.leftCol →
        t = { s with crawl := { s.crawl with hold := lo ++ c :: hi } }))

/-- R100, R102: t is s after a Handoff's characters have been placed one at a time, from index i on. -/
def placesChars : Col → List HandoffChar → State → State → Prop
  | _, [], s, t => t = s
  | i, c :: cs, s, t =>
    ∃ u, placesChar ⟨i, c.entry, c.glyph, c.attr, false⟩ s u ∧ placesChars (i + 1) cs u t

/-! ### Handing on (R105 to R108) -/

/-- R105, R106: the batch due in a hold: it starts with the unsent character of least index, which is due
when E − L < 24, and runs on over the unsent characters of consecutive index, up to 4 in all. -/
def isBatch (left : Col) (hold batch : List TapeChar) : Prop :=
  ∃ (before after more : List TapeChar) (first : TapeChar), hold = before ++ batch ++ after ∧
    batch = first :: more ∧ batch.length ≤ 4 ∧ sdiff first.entry left < 24 ∧
    (∀ c ∈ before, c.sent = true) ∧
    (∀ i c, batch[i]? = some c → c.sent = false ∧ c.index = first.index + BitVec.ofNat 24 i) ∧
    (batch.length < 4 → ∀ c, after.head? = some c →
      c.sent = true ∨ c.index ≠ first.index + BitVec.ofNat 24 batch.length)

/-- R108: the characters that the removal test leaves: not passed, or, at a segment that is not the tail,
not sent. -/
def stays (s : State) (c : TapeChar) : Bool :=
  decide (0 ≤ sdiff (c.entry + 5) s.leftCol) || (!c.sent && !s.isTail)

/-- R106, R107: the Handoff frame that a batch is queued in: to the next segment, with offset O + w (where
that is no more than 65,535) and each character's entry column, glyph and attribute. -/
def isHandoffOf (s : State) (r : Fin 4) (batch : List TapeChar) (g : TxFrame) : Prop :=
  ∃ (o : BitVec 16) (first : Col),
    g = ⟨segmentAddress r (s.straps.segment + 1),
      .handoff o first (batch.map (fun c => ⟨c.entry, c.glyph, c.attr⟩)), 0⟩ ∧
    (batch.map TapeChar.index).head? = some first ∧
    (∀ n, s.crawl.offset = some n → n.toNat + s.straps.width < 65536 →
      o.toNat = n.toNat + s.straps.width)

/-- R106: a held character after a batch has been marked sent. -/
def markedSent (batch : List TapeChar) (c : TapeChar) : TapeChar :=
  if c.index ∈ batch.map TapeChar.index then { c with sent := true } else c

/-- R106 to R108: t is s with one batch handed on: its frame queued (none at a listen-only station), its
characters marked sent, and the removal test made. -/
def handsOn (s t : State) : Prop :=
  s.isTail = false ∧ (s.listenOnly = true ∨ s.line.tapeQueue.length < 8) ∧
  ∃ (batch : List TapeChar) (queue : List TxFrame), isBatch s.leftCol s.crawl.hold batch ∧
    (s.listenOnly = true ∨ s.straps.ribbon = none → queue = s.line.tapeQueue) ∧
    (∀ r, s.listenOnly = false → s.straps.ribbon = some r →
      ∃ g, isHandoffOf s r batch g ∧ queue = s.line.tapeQueue ++ [g]) ∧
    t = { s with
      line := { s.line with tapeQueue := queue }
      crawl := { s.crawl with hold := (s.crawl.hold.map (markedSent batch)).filter (stays s) } }

/-- R105 to R107: t is s after every batch that can be handed on has been; where s holds no more than a
hold can, none that could be is left. -/
def handsOver (s t : State) : Prop :=
  Relation.ReflTransGen handsOn s t ∧
  (s.crawl.hold.length ≤ 48 → ∀ batch, isBatch t.leftCol t.crawl.hold batch →
    t.isTail = true ∨ (t.listenOnly = false ∧ 8 ≤ t.line.tapeQueue.length))

/-- R105, R108: t is s after the removal test and the handing on that follows it. -/
def judged (s t : State) : Prop :=
  handsOver { s with crawl := { s.crawl with hold := s.crawl.hold.filter (stays s) } } t

end Sys2Proof.Machine
end

