-- ==== Sys2Proof/Certificates/Slice0/Obligations.lean ====
section
/-!
DEFINITION. The statements for the provers. Each docstring names the rules it formalises, or the log
entry of the model's choice it rests on.
-/
section Statements

open Sys2Proof Sys2Proof.Machine

/-! ### The step and the whole machine -/

/-- The step takes the command at the front of the queue and runs it on the rest. On an empty queue
it is one timer clock of R94's pace timer (the model's choice, log entry 4). -/
def Obligations.StepRunsFrontCommand : Prop :=
  (∀ (s : State) (c : Instr) (rest : List Instr), s.pending = c :: rest →
    step s = exec c { s with pending := rest }) ∧
  (∀ s : State, s.pending = [] →
    (s.resetAsserted = true → step s = .next s) ∧
    (s.resetAsserted = false → s.moving = false → step s = .next s) ∧
    (s.resetAsserted = false → s.moving = true → (s.crawl.counter + 1) % 65536 ≠ s.crawl.period →
      step s = .next { s with
        crawl := { s.crawl with counter := (s.crawl.counter + 1) % 65536 } }) ∧
    (s.resetAsserted = false → s.moving = true → (s.crawl.counter + 1) % 65536 = s.crawl.period →
      step s = exec .crawlStep s))

/-- No rule stops a 316, and a command does nothing to the queue of commands that wait. While the
reset pin is asserted the blocks do not run (the model's choice, log entry 7). -/
def Obligations.EveryCommandCompletes : Prop :=
  (∀ (c : Instr) (s : State), ∃ t, exec c s = .next t ∧ t.pending = s.pending) ∧
  (∀ (c : Instr) (s : State), s.resetAsserted = true → c ≠ .resetAssert →
    (∀ pins, c ≠ .powerOnReset pins) → exec c s = .next s)

/-- R198, R199, R123: the straps as read at the release of the reset pin, and R197: nothing but
another release changes them. -/
def Obligations.StrapsReadOnlyAtRelease : Prop :=
  (∀ (pins : StrapPins) (s : State), ∃ t, exec (.powerOnReset pins) s = .next t ∧
    t.straps.station =
      (if pins.station = 0 ∨ pins.station = 63 then none else some pins.station.toNat) ∧
    t.straps.bitTime = (if pins.rate = 0 then 4 else if pins.rate = 2 then 1 else 2) ∧
    (∀ r : Fin 4, t.straps.ribbon = some r ↔ pins.ribbon.toNat = r.val + 1) ∧
    t.straps.segment = pins.segment.toNat ∧
    t.straps.tail = decide (pins.tail = 1) ∧
    t.straps.width = 48 + 24 * pins.width.toNat ∧
    t.straps.terminals = min 4 pins.terminals.toNat ∧
    t.straps.board = decide (pins.board = 1) ∧
    t.straps.budget = 1024 * (pins.budget.toNat + 1)) ∧
  (∀ (c : Instr) (s t : State), (∀ pins, c ≠ .powerOnReset pins) → exec c s = .next t →
    t.straps = s.straps)

/-! ### Invariants that every step keeps -/

/-- The state after reset meets every invariant below. -/
def Obligations.ResetMeetsInvariants : Prop :=
  withinCapacity State.reset ∧ terminalsWellKept State.reset ∧ countsInRange State.reset ∧
  pinsFollowLinks State.reset ∧ refsFollowTerminals State.reset ∧ tableWithinSize State.reset ∧
  crawlByRole State.reset ∧ headLevelsAgree State.reset ∧ lampsWithinBudget State.reset ∧
  listenOnlySilent State.reset

/-- R64, R81, R99, R184, R191: the queues and lists stay within their sizes. -/
def Obligations.StepKeepsCapacity : Prop :=
  ∀ s t : State, withinCapacity s → step s = .next t → withinCapacity t

/-- R139, R140, R147, R148, R158, R168, R173: the law of the terminals. -/
def Obligations.StepKeepsTerminalLaw : Prop :=
  ∀ s t : State, terminalsWellKept s → step s = .next t → terminalsWellKept t

/-- R202, R205: the tallies and the line-silence timer stay in range, and the lamp follows the
timer. -/
def Obligations.StepKeepsCounts : Prop :=
  ∀ s t : State, countsInRange s → step s = .next t → countsInRange t

/-- R20, R23, R37: no symbol is held twice, and the cell pins follow the plan links. -/
def Obligations.StepKeepsCellPins : Prop :=
  ∀ s t : State, pinsFollowLinks s → step s = .next t → pinsFollowLinks t

/-- R24, R168: the terminal references follow what the terminals show and watch. -/
def Obligations.StepKeepsTerminalRefs : Prop :=
  ∀ s t : State, refsFollowTerminals s → step s = .next t → refsFollowTerminals t

/-- R20, R21, R25: the table never holds more than 64 records, because at most 44 are pinned. -/
def Obligations.StepKeepsTableSize : Prop :=
  ∀ s t : State, tableWithinSize s → step s = .next t → tableWithinSize t

/-- R89 to R93, R101: the segment state agrees with the role; a head stays RUNNING with offset 0. -/
def Obligations.StepKeepsRoles : Prop :=
  ∀ s t : State, crawlByRole s → step s = .next t → crawlByRole t

/-- R72, R75: at a head the pace level is the late-tape level, and the idle timer runs exactly while
the queue is empty. -/
def Obligations.StepKeepsHeadLevels : Prop :=
  ∀ s t : State, headLevelsAgree s → step s = .next t → headLevelsAgree t

/-- R124, R128: no frame result ever draws more than the budget. -/
def Obligations.StepKeepsLampsWithinBudget : Prop :=
  ∀ s t : State, lampsWithinBudget s → step s = .next t → lampsWithinBudget t

/-- R190: a listen-only station never drives the line. -/
def Obligations.StepKeepsListenOnlySilent : Prop :=
  ∀ s t : State, listenOnlySilent s → step s = .next t →
    listenOnlySilent t ∧ (t.listenOnly = true → drivesLine t = false)

/-! ### The refresh frame -/

/-- R128: in every refresh frame the board draws at most its allowance, the ribbon at most its grant,
and the two together at most the effective budget in force. -/
def Obligations.FrameDrawsWithinBudget : Prop :=
  ∀ (r0 r1 r2 r3 : BitVec 48) (s : State), s.resetAsserted = false →
    ∃ t r, exec (.refreshFrame r0 r1 r2 r3) s = .next t ∧ t.lamps.result = some r ∧
      r.bEff = s.lamps.effective ∧ r.grantR + r.allowB = r.bEff ∧
      (r.board.map (fun c => (c.price ++ c.tick ++ c.change ++ c.status).sum)).sum ≤ r.allowB ∧
      (r.ribbon.map (fun c => (c.dots.filter id).length * c.level)).sum ≤ r.grantR ∧
      (r.board.map (fun c => (c.price ++ c.tick ++ c.change ++ c.status).sum)).sum +
        (r.ribbon.map (fun c => (c.dots.filter id).length * c.level)).sum ≤ s.lamps.effective

/-- R125: the four amounts of a refresh frame, and what the rule says of them, in every state whose
effective budget is one that R123 and R124 give (an invariant: StepKeepsLampsWithinBudget). -/
def Obligations.FrameAllocation : Prop :=
  ∀ (r0 r1 r2 r3 : BitVec 48) (s : State), s.resetAsserted = false → lampsWithinBudget s →
    ∃ t r, exec (.refreshFrame r0 r1 r2 r3) s = .next t ∧ t.lamps.result = some r ∧
      r.bEff = s.lamps.effective ∧
      r.dB = boardUnits (boardImage s) ∧ r.dR = ribbonDemand none (windowImage s) ∧
      r.floor = min r.dB (r.bEff / 4) ∧ r.allowR = r.bEff - r.floor ∧
      r.grantR = min r.dR r.allowR ∧ r.allowB = r.bEff - r.grantR ∧
      3 * r.bEff ≤ 4 * r.allowR ∧ r.allowR ≠ 0 ∧ r.floor ≤ r.allowB ∧
      (r.allowB = 0 ↔ r.dB = 0 ∧ r.grantR = r.bEff)

/-- R126, R127, R129: every drive level is the unscaled level, or that level scaled and rounded down
when the demand is above the allowance; none exceeds its unscaled level, which is 0, 8 to 15, or for a
dot 12 or 15. -/
def Obligations.DriveLevelsScaled : Prop :=
  ∀ (r0 r1 r2 r3 : BitVec 48) (s : State), s.resetAsserted = false →
    ∃ t r, exec (.refreshFrame r0 r1 r2 r3) s = .next t ∧ t.lamps.result = some r ∧
      r.board.length = (boardImage s).length ∧
      (∀ i k : Nat,
        (r.board.getD i CellLamps.dark).levels.getD k 0 =
          (if r.allowB < r.dB then
            ((boardImage s).getD i CellLamps.dark).levels.getD k 0 * r.allowB / r.dB
          else ((boardImage s).getD i CellLamps.dark).levels.getD k 0) ∧
        (r.board.getD i CellLamps.dark).levels.getD k 0 ≤
          ((boardImage s).getD i CellLamps.dark).levels.getD k 0 ∧
        (((boardImage s).getD i CellLamps.dark).levels.getD k 0 = 0 ∨
          (8 ≤ ((boardImage s).getD i CellLamps.dark).levels.getD k 0 ∧
            ((boardImage s).getD i CellLamps.dark).levels.getD k 0 ≤ 15))) ∧
      r.ribbon.length = s.straps.width ∧
      (∀ i : Nat, i < s.straps.width →
        ((windowImage s).getD i none = none →
          (r.ribbon.getD i ⟨[], 0⟩).dots.all (fun d => !d) = true) ∧
        (∀ w, (windowImage s).getD i none = some w →
          (r.ribbon.getD i ⟨[], 0⟩).dots = glyphColumn w.glyph w.column ∧
          (r.ribbon.getD i ⟨[], 0⟩).level =
            (if r.allowR < r.dR then (if w.attr = .notice then 15 else 12) * r.allowR / r.dR
            else (if w.attr = .notice then 15 else 12)) ∧
          (r.ribbon.getD i ⟨[], 0⟩).level ≤ (if w.attr = .notice then 15 else 12)))

/-- R117 to R119, R135 to R139, R153, R210: a refresh frame latches the board and the window, composes
every active terminal's display, whose line then carries line 1 before line 2 (an inactive terminal's line
is not driven), scans every active
terminal's matrix, and presses the keys the scans produce, terminal 0's first (the order of its parts: log
entry 15). It leaves the rest alone but for those keys. -/
def Obligations.RefreshFrameLatches : Prop :=
  ∀ (r0 r1 r2 r3 : BitVec 48) (s : State), s.resetAsserted = false →
    ∃ t latched, exec (.refreshFrame r0 r1 r2 r3) s = .next t ∧
      (∃ shown : Quad Terminal, (∀ u : Fin 4, shown.get u = if s.active u then
          { s.term u with display := ⟨line1 s (s.term u), line2 s (s.term u)⟩ } else s.term u) ∧
        latched = { s with
          terminals := shown
          lamps := { s.lamps with
            image := s.cells.map (cellImage s.table)
            window := windowImage s
            result := some (frameResult s.lamps.effective (boardImage s) (windowImage s)) } }) ∧
      exec (.refreshFrame r0 r1 r2 r3) s =
        thenRun (scanInTurn 0 r0 latched) (fun a => thenRun (scanInTurn 1 r1 a) (fun b =>
          thenRun (scanInTurn 2 r2 b) (scanInTurn 3 r3))) ∧
      (∀ (u : Fin 4) (raw : BitVec 48), s.active u = true →
        (u = 0 → raw = r0) → (u = 1 → raw = r1) → (u = 2 → raw = r2) → (u = 3 → raw = r3) →
        (t.term u).debounce = debouncesAtScan raw (s.term u) ∧
        (t.term u).ghostLock = lockAtScan raw (s.term u) ∧
        displayCodes t u = some (line1 s (s.term u) ++ line2 s (s.term u)) ∧
        (line1 s (s.term u)).length = 20 ∧ (line2 s (s.term u)).length = 20) ∧
      t.lamps = { s.lamps with
        image := s.cells.map (cellImage s.table)
        window := windowImage s
        result := some (frameResult s.lamps.effective (boardImage s) (windowImage s)) } ∧
      (∀ u : Fin 4, (t.term u).display =
        (if s.active u then ⟨line1 s (s.term u), line2 s (s.term u)⟩ else (s.term u).display)) ∧
      (∀ u : Fin 4, s.active u = false → t.term u = s.term u ∧ displayCodes t u = none) ∧
      t.resetAsserted = false ∧ t.tickCount = s.tickCount ∧ t.cells = s.cells ∧
      t.composer = s.composer ∧ t.crawl = s.crawl ∧ t.lineSilence = s.lineSilence ∧
      t.faultLamp = s.faultLamp ∧
      ((s.active 0 = true → keysAtScan r0 (s.term 0) = []) →
        (s.active 1 = true → keysAtScan r1 (s.term 1) = []) →
        (s.active 2 = true → keysAtScan r2 (s.term 2) = []) →
        (s.active 3 = true → keysAtScan r3 (s.term 3) = []) →
        t.table = s.table ∧ t.askTag = s.askTag ∧ t.line = s.line ∧ t.tallies = s.tallies ∧
        (∀ u : Fin 4, t.term u = { s.term u with
          display := (t.term u).display
          debounce := (t.term u).debounce
          ghostLock := (t.term u).ghostLock }))

/-! ### The reset pin, the floor tick and the thresholds -/

/-- R197: while the pin is asserted the line is not driven, the lamps and dots are dark, the display
lines blank, the beepers silent and the fault lamp lit. That the blocks' own state is kept until the
release is the model's reading (log entry 7, DEDUCED). -/
def Obligations.ResetAssertDarkensOutputs : Prop :=
  ∀ s : State, ∃ t, exec .resetAssert s = .next t ∧
    t.resetAsserted = true ∧ t.faultLamp = true ∧ drivesLine t = false ∧
    (∀ cell k slot n, boardLampOn t cell k slot n = false) ∧
    (∀ column row slot n, ribbonDotOn t column row slot n = false) ∧
    (∀ u : Fin 4, t.term u = { s.term u with beeperOn := false, display := Display.blank }) ∧
    t.line = { s.line with sending := none, holdDrive := false } ∧
    t.lamps.warmUp = s.lamps.warmUp ∧ t.lamps.effective = s.lamps.effective ∧
    t.straps = s.straps ∧ t.tickCount = s.tickCount ∧ t.table = s.table ∧ t.cells = s.cells ∧
    t.composer = s.composer ∧ t.crawl = s.crawl ∧ t.askTag = s.askTag ∧ t.tallies = s.tallies ∧
    t.lineSilence = s.lineSilence

/-- R200, with R41, R44, R87, R115, R133, R155, R175, R195, R202 and R205: what every block holds at
the release of the pin, by role; only a head that is not listen-only has a frame queued, its Pace
mark. -/
def Obligations.PowerOnStartsEveryBlock : Prop :=
  ∀ (pins : StrapPins) (s : State), ∃ t, exec (.powerOnReset pins) s = .next t ∧
    t.resetAsserted = false ∧ t.tickCount = 0 ∧ t.table = [] ∧
    t.cells = cellNumbers.map (fun n =>
      { number := n, link := none, pattern := .steady, position := 0, repeats := false }) ∧
    t.composer = { printQueue := [], recent := [], level := 0, idleTimer := some 0, overflow := false,
                   nextIndex := 0, nextEntry := none } ∧
    (t.straps.ribbon = none → t.crawl.segState = .dark ∧ t.crawl.offset = none) ∧
    (t.isHead = true → t.crawl.segState = .running ∧ t.crawl.offset = some 0) ∧
    (t.straps.ribbon.isSome → t.straps.segment ≠ 0 →
      t.crawl.segState = .waiting ∧ t.crawl.offset = none) ∧
    t.crawl.stepCount = 0 ∧ t.crawl.slew = 0 ∧ t.crawl.phase = 0 ∧ t.crawl.paceLevel = 0 ∧
    t.crawl.counter = 0 ∧ t.crawl.period = 1920 ∧ t.crawl.staged = none ∧
    t.crawl.paceHeard = false ∧ t.crawl.silence = none ∧ t.crawl.hold = [] ∧
    t.crawl.pendingPace = false ∧
    t.lamps.warmUp = 0 ∧ t.lamps.effective = t.straps.budget / 4 ∧ t.lamps.result = none ∧
    t.lamps.image = List.replicate 16 CellLamps.dark ∧
    t.lamps.window = List.replicate t.straps.width none ∧
    (∀ u : Fin 4, t.term u = Terminal.atReset) ∧ t.askTag = 0 ∧
    t.line.bitTime = t.straps.bitTime ∧ t.line.assembler = .waitingForQuiet ∧ t.line.quiet = 0 ∧
    t.line.completed = none ∧ t.line.slots = [] ∧ t.line.dispatching = false ∧
    t.line.tapeQueue = [] ∧ t.line.sending = none ∧
    t.line.ownFrameWait = false ∧ t.line.holding = false ∧ t.line.holdDrive = false ∧
    (∀ r, t.straps.ribbon = some r → t.straps.segment = 0 → t.listenOnly = false →
      t.line.generalQueue = [⟨0, .pace r, 0⟩]) ∧
    (t.isHead = false ∨ t.listenOnly = true → t.line.generalQueue = []) ∧
    (∀ k : Tally, t.tallies.get k = 0) ∧ t.lineSilence = 80 ∧ t.faultLamp = true

/-- R18, R55, R75, R92, R124, R141, R142, R159, R200, R205: what one floor tick does to every block
(the order of its parts: log entry 14). -/
def Obligations.FloorTickAdvances : Prop :=
  ∀ s : State, s.resetAsserted = false →
    ∃ t, exec .floorTick s = .next t ∧
      t.resetAsserted = false ∧ t.tickCount = s.tickCount + 1 ∧ t.straps = s.straps ∧
      t.askTag = s.askTag ∧
      t.table = s.table.map (fun r => { r with age := if r.age < 65535 then r.age + 1 else r.age }) ∧
      t.cells = s.cells.map (fun c =>
        if c.pattern = .steady then c
        else if c.position + 1 ≤ c.pattern.length then { c with position := c.position + 1 }
        else if c.repeats then { c with position := 1 }
        else { c with pattern := .steady, position := 0, repeats := false }) ∧
      t.lamps = { s.lamps with
        warmUp := if s.lamps.warmUp < 64 then s.lamps.warmUp + 1 else s.lamps.warmUp
        effective := budgetAt s.straps.budget
          (if s.lamps.warmUp < 64 then s.lamps.warmUp + 1 else s.lamps.warmUp) } ∧
      (s.isHead = false → t.composer = s.composer) ∧
      (s.isHead = true → ∀ n, s.composer.idleTimer = some n → n < 127 →
        t.composer = { s.composer with idleTimer := some (n + 1) }) ∧
      (s.isHead = true → ∀ n, s.composer.idleTimer = some n → 127 ≤ n →
        t.composer = { s.composer with
          idleTimer := some (if s.composer.level = 0 then 0 else max n 128) }) ∧
      (s.composer.idleTimer = none → t.composer = s.composer) ∧
      t.crawl = s.crawl.silenceTick ∧
      t.lineSilence = (if s.lineSilence < 80 then s.lineSilence + 1 else s.lineSilence) ∧
      t.faultLamp = (s.faultLamp || decide (79 ≤ s.lineSilence ∧ s.lineSilence ≤ 80)) ∧
      (∀ u : Fin 4, (∀ a, (s.term u).ask = some a → a.deadline ≠ s.tickCount + 1) →
        t.term u = { s.term u with
          beeper := (s.term u).beeper - 1
          beeperOn := if (s.term u).beeper ≤ 1 then false else (s.term u).beeperOn
          messageTimer := (s.term u).messageTimer - 1
          message := if (s.term u).messageTimer ≤ 1 then none else (s.term u).message }) ∧
      (∀ (u : Fin 4) (a : Ask), (s.term u).ask = some a → a.deadline = s.tickCount + 1 →
        (t.term u).ask = none ∧ (t.term u).state = .idle ∧ (t.term u).entry = [] ∧
        (t.term u).keyQueue = [] ∧ (t.term u).message = some .noQuote ∧
        (t.term u).messageTimer = 40) ∧
      ((∀ (u : Fin 4) (a : Ask), (s.term u).ask = some a → a.deadline ≠ s.tickCount + 1) →
        t.line = s.line ∧ t.tallies = s.tallies)

/-- R55, R124, R141, R142, R205: the threshold commands perform their event where the threshold stands
and change nothing elsewhere (log entries 3 and 17). -/
def Obligations.ThresholdsActAlone : Prop :=
  ∀ s : State, s.resetAsserted = false →
    (∀ cell : Fin 16, exec (.patternEnd cell) s = .next { s with
      cells := s.cells.map (fun c =>
        if c.number = cell ∧ c.pattern ≠ .steady ∧ c.pattern.length ≤ c.position then
          (if c.repeats then { c with position := 1 }
           else { c with pattern := .steady, position := 0, repeats := false })
        else c) }) ∧
    (∀ u : Fin 4, exec (.beeperExpiry u) s = .next (s.setTerm u { s.term u with
      beeperOn := if (s.term u).beeper = 0 then false else (s.term u).beeperOn })) ∧
    (∀ u : Fin 4, exec (.messageExpiry u) s = .next (s.setTerm u { s.term u with
      message := if (s.term u).messageTimer = 0 then none else (s.term u).message })) ∧
    exec .warmUpPhase s = .next { s with lamps := { s.lamps with
      effective := if s.lamps.warmUp < 32 then s.straps.budget / 4
        else if s.lamps.warmUp < 64 then s.straps.budget / 2 else s.straps.budget } } ∧
    exec .lineSilenceTimeout s =
      .next { s with faultLamp := s.faultLamp || decide (s.lineSilence = 80) }

/-- R159: at its deadline an ask ends, its Ask frame is withdrawn unless it is on the line, the
timeout is counted, and the terminal shows NO QUOTE in IDLE. That the command acts apart from the tick
(log entry 3) and changes nothing before the deadline (log entry 2) are the model's choices. -/
def Obligations.AskTimesOut : Prop :=
  ∀ (u : Fin 4) (s : State), s.resetAsserted = false →
    (∀ a, (s.term u).ask = some a → a.deadline = s.tickCount →
      exec (.askTimeout u) s = .next
        ((({ s with tallies := { s.tallies with
            asksTimedOut := saturate s.tallies.asksTimedOut } } : State).withdraw
              (TxFrame.isAskOf u a.tag)).setTerm u
          { s.term u with ask := none, state := .idle, entry := [], keyQueue := [],
                          message := some .noQuote, messageTimer := 40 })) ∧
    ((∀ a, (s.term u).ask = some a → a.deadline ≠ s.tickCount) →
      exec (.askTimeout u) s = .next s)

/-! ### Keys -/

/-- R137 to R139: the third disagreeing reading of a position flips its debounced reading; a press
with no ghost lock produces its key; nothing is due before, or at a position with no switch, or at an
inactive terminal. -/
def Obligations.DebounceChangeProducesKey : Prop :=
  ∀ (u : Fin 4) (pos : Fin 48) (s : State), s.resetAsserted = false →
    (∀ d, s.active u = true → pos.val < 44 → (s.term u).debounce[pos.val]? = some d → 2 ≤ d.count →
      (d.down = true ∨ (s.term u).ghostLock = true →
        exec (.debounceChange u pos) s = .next (s.setTerm u { s.term u with
          debounce := (s.term u).debounce.set pos.val { down := !d.down, count := 0 } })) ∧
      (∀ k, d.down = false → (s.term u).ghostLock = false → keyOfCode pos.val = some k →
        exec (.debounceChange u pos) s = exec (keyCommand u k) (s.setTerm u { s.term u with
          debounce := (s.term u).debounce.set pos.val { down := true, count := 0 } }))) ∧
    (∀ d, (s.term u).debounce[pos.val]? = some d → d.count < 2 →
      exec (.debounceChange u pos) s = .next s) ∧
    (44 ≤ pos.val → exec (.debounceChange u pos) s = .next s) ∧
    (s.active u = false → exec (.debounceChange u pos) s = .next s)

/-- R144, R145, R148: a letter at a terminal that takes keys, and R145, R151: RUB in KEYING and in
LIMIT ENTRY. (The refusals are RefusedIgnoredAndQueuedKeys.) -/
def Obligations.LetterAndRubKeys : Prop :=
  (∀ (u : Fin 4) (l : Fin 26) (s : State), takesKeys u s →
     ((s.term u).state = .idle → exec (.letterKey u l) s = .next (s.setTerm u
       { s.term u with message := none, messageTimer := 0, entry := [l], state := .keying })) ∧
     ((s.term u).state = .keying → (s.term u).entry.length < 4 →
       exec (.letterKey u l) s = .next (s.setTerm u
         { s.term u with message := none, messageTimer := 0, entry := (s.term u).entry ++ [l] })) ∧
     ((s.term u).state = .keying → 4 ≤ (s.term u).entry.length →
       exec (.letterKey u l) s = .next (s.setTerm u
         { s.term u with message := none, messageTimer := 0, beeper := max (s.term u).beeper 2,
                         beeperOn := true })) ∧
     (∀ y, (s.term u).state = .showing → (s.term u).shown = some y →
       exec (.letterKey u l) s = .next (({ s with
         table := s.table.map (fun r => if r.symbol = y then { r with refs := r.refs - 1 } else r)
         } : State).setTerm u
           { s.term u with message := none, messageTimer := 0, shown := none, entry := [l],
                           state := .keying }))) ∧
  (∀ (u : Fin 4) (s : State), takesKeys u s →
     ((s.term u).state = .keying → exec (.rubKey u) s = .next (s.setTerm u
       { s.term u with message := none, messageTimer := 0, entry := (s.term u).entry.dropLast,
                       state := if (s.term u).entry.length ≤ 1 then .idle else .keying })) ∧
     (∀ y, (s.term u).state = .limitEntry → (s.term u).shown = some y →
       ((s.term u).eighths.isSome → exec (.rubKey u) s = .next (s.setTerm u
         { s.term u with message := none, messageTimer := 0, eighths := none })) ∧
       ((s.term u).eighths = none → (s.term u).fracMark = true →
         exec (.rubKey u) s = .next (s.setTerm u
           { s.term u with message := none, messageTimer := 0, fracMark := false })) ∧
       ((s.term u).eighths = none → (s.term u).fracMark = false → (s.term u).whole ≠ [] →
         exec (.rubKey u) s = .next (s.setTerm u
           { s.term u with message := none, messageTimer := 0,
                           whole := (s.term u).whole.dropLast })) ∧
       ((s.term u).eighths = none → (s.term u).fracMark = false → (s.term u).whole = [] →
         exec (.rubKey u) s = .next (s.setTerm u
           { s.term u with message := none, messageTimer := 0, beeper := max (s.term u).beeper 2,
                           beeperOn := true }))))

/-- R151: digits and FRACTION in LIMIT ENTRY. -/
def Obligations.LimitEntryDigits : Prop :=
  ∀ (u : Fin 4) (d : Fin 10) (y : Symbol) (s : State), takesKeys u s →
    (s.term u).state = .limitEntry → (s.term u).shown = some y →
    ((s.term u).fracMark = false → (s.term u).eighths = none → (s.term u).whole.length < 4 →
      exec (.digitKey u d) s = .next (s.setTerm u
        { s.term u with message := none, messageTimer := 0, whole := (s.term u).whole ++ [d] })) ∧
    (∀ e : Fin 8, (s.term u).fracMark = true → (s.term u).eighths = none → d.val = e.val →
      exec (.digitKey u d) s = .next (s.setTerm u
        { s.term u with message := none, messageTimer := 0, eighths := some e })) ∧
    ((s.term u).eighths.isSome ∨ ((s.term u).fracMark = true ∧ 8 ≤ d.val) ∨
        ((s.term u).fracMark = false ∧ (s.term u).eighths = none ∧ 4 ≤ (s.term u).whole.length) →
      exec (.digitKey u d) s = .next (s.setTerm u
        { s.term u with message := none, messageTimer := 0, beeper := max (s.term u).beeper 2,
                        beeperOn := true })) ∧
    ((s.term u).fracMark = false → exec (.fractionKey u) s = .next (s.setTerm u
      { s.term u with message := none, messageTimer := 0, fracMark := true })) ∧
    ((s.term u).fracMark = true → exec (.fractionKey u) s = .next (s.setTerm u
      { s.term u with message := none, messageTimer := 0, beeper := max (s.term u).beeper 2,
                      beeperOn := true }))

/-- R146, R157, R158: QUOTE in KEYING, its four rows from the top. -/
def Obligations.QuoteInKeying : Prop :=
  ∀ (u : Fin 4) (s : State), takesKeys u s → (s.term u).state = .keying →
    (∀ r, findRecord (entrySymbol (s.term u).entry) s.table = some r →
      exec (.quoteKey u) s = .next (({ s with
        table := { r with refs := r.refs + 1 } ::
          s.table.filter (fun q => q.symbol != entrySymbol (s.term u).entry) } : State).setTerm u
        { s.term u with message := none, messageTimer := 0, entry := [], state := .showing,
                        shown := some (entrySymbol (s.term u).entry) })) ∧
    (findRecord (entrySymbol (s.term u).entry) s.table = none → s.listenOnly = true →
      exec (.quoteKey u) s = .next (s.setTerm u
        { s.term u with message := some .noQuote, messageTimer := 40 })) ∧
    (findRecord (entrySymbol (s.term u).entry) s.table = none → s.listenOnly = false →
      4 ≤ s.line.generalQueue.length →
      exec (.quoteKey u) s = .next (s.setTerm u
        { s.term u with message := some .lineBusy, messageTimer := 40 })) ∧
    (findRecord (entrySymbol (s.term u).entry) s.table = none → s.listenOnly = false →
      s.line.generalQueue.length < 4 →
      exec (.quoteKey u) s = .next (({ s with
        askTag := s.askTag + 1
        line := { s.line with generalQueue := s.line.generalQueue ++
          [⟨0, .ask u (s.askTag + 1) (entrySymbol (s.term u).entry), 0⟩] } } : State).setTerm u
        { s.term u with message := none, messageTimer := 0, state := .asking,
                        ask := some ⟨s.askTag + 1, entrySymbol (s.term u).entry,
                          s.tickCount + 16⟩ }))

/-- R16, R152, R171: QUOTE in LIMIT ENTRY commits the entry's value or refuses it, its rows from the
top. -/
def Obligations.QuoteCommitsLimit : Prop :=
  ∀ (u : Fin 4) (y : Symbol) (r : QuoteRecord) (s : State), takesKeys u s →
    (s.term u).state = .limitEntry → (s.term u).shown = some y → findRecord y s.table = some r →
    (¬(1 ≤ (s.term u).limitValue ∧ (s.term u).limitValue ≤ 32767) →
      exec (.quoteKey u) s = .next (s.setTerm u
        { s.term u with message := none, messageTimer := 0, beeper := max (s.term u).beeper 2,
                        beeperOn := true })) ∧
    (1 ≤ (s.term u).limitValue → (s.term u).limitValue ≤ 32767 →
      (r.last = none ∨ (∃ l, r.last = some l ∧ l.price = (s.term u).limitValue) ∨
        (r.last.isSome ∧ (s.term u).watches y = false ∧ 6 ≤ (s.term u).watch.length) →
        exec (.quoteKey u) s = .next (s.setTerm u
          { s.term u with message := none, messageTimer := 0, beeper := max (s.term u).beeper 2,
                          beeperOn := true, whole := [], fracMark := false, eighths := none,
                          state := .showing })) ∧
      (∀ l, r.last = some l → l.price ≠ (s.term u).limitValue → (s.term u).watches y = true →
        exec (.quoteKey u) s = .next (s.setTerm u
          { s.term u with message := none, messageTimer := 0, whole := [], fracMark := false,
                          eighths := none, state := .showing,
                          watch := (s.term u).watch.map (fun e =>
                            if e.symbol = y then { e with limit := some ⟨(s.term u).limitValue,
                              if l.price < (s.term u).limitValue then .above else .below⟩ }
                            else e) })) ∧
      (∀ l, r.last = some l → l.price ≠ (s.term u).limitValue → (s.term u).watches y = false →
        (s.term u).watch.length < 6 →
        exec (.quoteKey u) s = .next (({ s with table := s.table.map (fun q =>
            if q.symbol = y then { q with refs := q.refs + 1 } else q) } : State).setTerm u
          { s.term u with message := none, messageTimer := 0, whole := [], fracMark := false,
                          eighths := none, state := .showing,
                          watch := (s.term u).watch ++ [⟨y, some ⟨(s.term u).limitValue,
                            if l.price < (s.term u).limitValue then .above else .below⟩⟩] })))

/-- R143, R145, R148, R151, R160, R174: CLEAR acknowledges the oldest alert, or acts by the state. -/
def Obligations.ClearKeyByState : Prop :=
  ∀ (u : Fin 4) (s : State), s.resetAsserted = false → s.active u = true →
    ((s.term u).state = .asking ∧ (s.term u).keyQueue.length < 4 ∨
        (s.term u).state ≠ .asking ∧ (s.term u).keyQueue = [] →
      (s.term u).alerts ≠ [] → exec (.clearKey u) s = .next (s.setTerm u
        { s.term u with message := none, messageTimer := 0, alerts := (s.term u).alerts.tail })) ∧
    (∀ a, (s.term u).state = .asking → (s.term u).keyQueue.length < 4 → (s.term u).alerts = [] →
      (s.term u).ask = some a →
      exec (.clearKey u) s = .next ((s.withdraw (TxFrame.isAskOf u a.tag)).setTerm u
        { s.term u with message := none, messageTimer := 0, ask := none, state := .idle,
                        entry := [], keyQueue := [] })) ∧
    ((s.term u).state = .keying → (s.term u).keyQueue = [] → (s.term u).alerts = [] →
      exec (.clearKey u) s = .next (s.setTerm u
        { s.term u with message := none, messageTimer := 0, entry := [], state := .idle })) ∧
    (∀ y, (s.term u).state = .showing → (s.term u).keyQueue = [] → (s.term u).alerts = [] →
      (s.term u).shown = some y →
      exec (.clearKey u) s = .next (({ s with
        table := s.table.map (fun r => if r.symbol = y then { r with refs := r.refs - 1 } else r)
        } : State).setTerm u
          { s.term u with message := none, messageTimer := 0, shown := none, entry := [],
                          state := .idle })) ∧
    (∀ y, (s.term u).state = .limitEntry → (s.term u).keyQueue = [] → (s.term u).alerts = [] →
      (s.term u).shown = some y →
      exec (.clearKey u) s = .next (s.setTerm u
        { s.term u with message := none, messageTimer := 0, whole := [], fracMark := false,
                        eighths := none, state := .showing }))

/-- R149, R168 to R170: WATCH and UNWATCH in SHOWING. -/
def Obligations.WatchKeysInShowing : Prop :=
  ∀ (u : Fin 4) (y : Symbol) (s : State), takesKeys u s → (s.term u).state = .showing →
    (s.term u).shown = some y →
    ((s.term u).watches y = true ∨ 6 ≤ (s.term u).watch.length →
      exec (.watchKey u) s = .next (s.setTerm u
        { s.term u with message := none, messageTimer := 0, beeper := max (s.term u).beeper 2,
                        beeperOn := true })) ∧
    ((s.term u).watches y = false → (s.term u).watch.length < 6 →
      exec (.watchKey u) s = .next (({ s with table := s.table.map (fun r =>
          if r.symbol = y then { r with refs := r.refs + 1 } else r) } : State).setTerm u
        { s.term u with message := none, messageTimer := 0,
                        watch := (s.term u).watch ++ [⟨y, none⟩] })) ∧
    ((s.term u).watches y = false → exec (.unwatchKey u) s = .next (s.setTerm u
      { s.term u with message := none, messageTimer := 0, beeper := max (s.term u).beeper 2,
                      beeperOn := true })) ∧
    ((s.term u).watches y = true →
      exec (.unwatchKey u) s = .next (({ s with table := s.table.map (fun r =>
          if r.symbol = y then { r with refs := r.refs - 1 } else r) } : State).setTerm u
        { s.term u with message := none, messageTimer := 0,
                        watch := (s.term u).watch.filter (fun e => e.symbol != y) }))

/-- R149, R150: LIMIT and NEXT in SHOWING, and QUOTE there (R148). -/
def Obligations.NextAndLimitInShowing : Prop :=
  ∀ (u : Fin 4) (y : Symbol) (s : State), takesKeys u s → (s.term u).state = .showing →
    (s.term u).shown = some y →
    exec (.limitKey u) s = .next (s.setTerm u
      { s.term u with message := none, messageTimer := 0, whole := [], fracMark := false,
                      eighths := none, state := .limitEntry }) ∧
    exec (.quoteKey u) s = .next (s.setTerm u
      { s.term u with message := none, messageTimer := 0 }) ∧
    ((s.term u).watch = [] → exec (.nextKey u) s = .next (s.setTerm u
      { s.term u with message := none, messageTimer := 0, beeper := max (s.term u).beeper 2,
                      beeperOn := true })) ∧
    (∀ (before after : List WatchEntry) (e : WatchEntry) (z : Symbol) (r : QuoteRecord),
      (s.term u).watch = before ++ e :: after → (∀ w ∈ before, w.symbol ≠ y) → e.symbol = y →
      z = ((after.head?.getD ((before ++ [e]).headD e)).symbol) → z ≠ y →
      findRecord z s.table = some r →
      exec (.nextKey u) s = .next (({ s with
        table := { r with refs := r.refs + 1 } :: (s.table.map (fun q =>
          if q.symbol = y then { q with refs := q.refs - 1 } else q)).filter
            (fun q => q.symbol != z) } : State).setTerm u
        { s.term u with message := none, messageTimer := 0, shown := some z })) ∧
    (∀ (e : WatchEntry) (es : List WatchEntry) (r : QuoteRecord),
      (s.term u).watch = e :: es → (s.term u).watches y = false →
      findRecord e.symbol s.table = some r →
      exec (.nextKey u) s = .next (({ s with
        table := { r with refs := r.refs + 1 } :: (s.table.map (fun q =>
          if q.symbol = y then { q with refs := q.refs - 1 } else q)).filter
            (fun q => q.symbol != e.symbol) } : State).setTerm u
        { s.term u with message := none, messageTimer := 0, shown := some e.symbol })) ∧
    (∀ e : WatchEntry, (s.term u).watch = [e] → e.symbol = y →
      exec (.nextKey u) s = .next (s.setTerm u
        { s.term u with message := none, messageTimer := 0 }))

/-- R139, R140, R144, R145, R148, R151: a refused key beeps and a key ignored in IDLE does nothing
but clear the message; a key in ASKING waits; a fifth waiting key is dropped, counted and beeped; an
inactive terminal has no keys (R135). -/
def Obligations.RefusedIgnoredAndQueuedKeys : Prop :=
  ∀ (u : Fin 4) (k : Key) (s : State), s.resetAsserted = false →
    (∀ y, takesKeys u s → refuses (s.term u).state k = true →
      (s.term u).state = .keying ∨ (s.term u).shown = some y →
      exec (keyCommand u k) s = .next (s.setTerm u
        { s.term u with message := none, messageTimer := 0, beeper := max (s.term u).beeper 2,
                        beeperOn := true })) ∧
    (takesKeys u s → (s.term u).state = .idle → (∀ l, k ≠ .letter l) →
      (k = .clear → (s.term u).alerts = []) →
      exec (keyCommand u k) s = .next (s.setTerm u
        { s.term u with message := none, messageTimer := 0 })) ∧
    (s.active u = true → (s.term u).state = .asking → (s.term u).keyQueue.length < 4 → k ≠ .clear →
      exec (keyCommand u k) s = .next (s.setTerm u
        { s.term u with keyQueue := (s.term u).keyQueue ++ [k] })) ∧
    (s.active u = true → 4 ≤ (s.term u).keyQueue.length →
      exec (keyCommand u k) s = .next (({ s with tallies := { s.tallies with
          keysAlertsDropped := saturate s.tallies.keysAlertsDropped } } : State).setTerm u
        { s.term u with beeper := max (s.term u).beeper 2, beeperOn := true })) ∧
    (s.active u = false → exec (keyCommand u k) s = .next s)

/-! ### Messages -/

/-- R206, R208, R209: the bodies of the received messages, laid out field by field, are read as those
fields: a valid message of every class is read whole (R2 to R5, R100, R111, R161, R163). -/
def Obligations.BodiesReadAsLaidOut : Prop :=
  ∀ (dest origin : Byte) (y : Symbol) (serial : BitVec 16) (mask tag : Byte) (u : Fin 4),
    symbolAt (symbolBytes y) 0 = some y →
    (∀ (price lots : Nat) (kind : PrintKind) (k : Byte), 1 ≤ price → price ≤ 32767 → lots ≤ 65535 →
      kindOf k = some kind →
      readPrint ⟨dest, origin, bytes16 serial.toNat ++ [mask, k] ++ symbolBytes y ++ bytes16 price ++
        bytes16 lots⟩ =
        some ⟨⟨origin, serial⟩, mask, kind, y, price, if lots = 0 then 1 else lots⟩) ∧
    (∀ bid ask : Nat, bid ≤ 32767 → ask ≤ 32767 →
      readQuote ⟨dest, origin, symbolBytes y ++ bytes16 bid ++ bytes16 ask⟩ =
        some ⟨y, if bid = 0 then none else some bid, if ask = 0 then none else some ask⟩) ∧
    (∀ st : TradingState,
      readStatus ⟨dest, origin, symbolBytes y ++ [mask, st.code]⟩ = some ⟨y, mask, st⟩) ∧
    (∀ (o : Byte) (price lots : Nat), 1 ≤ price → price ≤ 32767 → lots ≤ 65535 →
      readCancel ⟨dest, origin, [o] ++ bytes16 serial.toNat ++ [mask] ++ symbolBytes y ++
        bytes16 price ++ bytes16 lots⟩ =
        some ⟨⟨o, serial⟩, mask, y, price, if lots = 0 then 1 else lots⟩) ∧
    (∀ (cell : Fin 16) (ref : Nat), ref ≤ 32767 →
      readPlan true ⟨dest, origin, [BitVec.ofNat 8 cell.val] ++ symbolBytes y ++ bytes16 ref⟩ =
        some ⟨cell, some y, if ref = 0 then none else some ref⟩ ∧
      readPlan true ⟨dest, origin, [BitVec.ofNat 8 cell.val, 0, 0, 0, 0] ++ bytes16 ref⟩ =
        some ⟨cell, none, if ref = 0 then none else some ref⟩ ∧
      readPlan false ⟨dest, origin, [BitVec.ofNat 8 cell.val] ++ symbolBytes y ++ bytes16 ref⟩ =
        none) ∧
    readAsk ⟨dest, origin, [smallByte u, tag] ++ symbolBytes y⟩ = some ⟨u, tag, y⟩ ∧
    (∀ r : QuoteRecord, r.symbol = y →
      (∀ p, r.reference = some p → 1 ≤ p ∧ p ≤ 32767) →
      (∀ l, r.last = some l → 1 ≤ l.price ∧ l.price ≤ 32767 ∧ 1 ≤ l.lots ∧ l.lots ≤ 65535) →
      (∀ p, r.bid = some p → 1 ≤ p ∧ p ≤ 32767) → (∀ p, r.ask = some p → 1 ≤ p ∧ p ≤ 32767) →
      readAnswer ⟨dest, origin, answerBody u tag r⟩ =
        some ⟨u, tag, y, r.reference, r.last, r.bid, r.ask, r.state⟩) ∧
    (∀ (offset : BitVec 16) (first : Col) (chars : List HandoffChar), 1 ≤ chars.length →
      chars.length ≤ 4 →
      readHandoff ⟨dest, origin, bytes16 offset.toNat ++ [BitVec.ofNat 8 chars.length] ++
        bytes24 first ++ chars.flatMap handoffCharBytes⟩ = some ⟨offset, first, chars⟩) ∧
    (∀ (level : Nat) (steps : Col), level ≤ 3 →
      readPace ⟨dest, origin, [smallByte u, BitVec.ofNat 8 level, BitVec.ofNat 8 level] ++
        bytes24 steps⟩ = some ⟨u, level, steps⟩) ∧
    (∀ flags : Byte, readTallyQuery ⟨dest, origin, [flags]⟩ = some (flags.getLsbD 0))

/-- R192 to R194, with the checks of R2 to R5, R35, R90, R100, R111, R161, R163, R201 and R203: the oldest
slot's frame is ignored where no block is listed for it, and its slot freed; refused, counted once and its
slot freed where its body fails a check (or, a Handoff, at a head); and otherwise taken, its slot kept
until DISPATCH_END. A frame that the handler cannot take now changes nothing (the model's choice, log
entries 2 and 8). -/
def Obligations.IgnoredAndRefusedFrames : Prop :=
  (∀ (c : MsgClass) (f : Frame) (s : State),
    (s.resetAsserted = false → ¬s.canTake c f → exec (messageCommand c f) s = .next s) ∧
    (s.canTake c f → (c = .answer → s.isOtherStation f.dest = false) →
      (¬s.listsFrame c f → exec (messageCommand c f) s = .next s.slotFreed) ∧
      (s.listsFrame c f →
        (¬bodyOk s.straps.board c f.body ∨ (c = .handoff ∧ s.isHead = true) →
          exec (messageCommand c f) s = .next s.frameRefused) ∧
        (bodyOk s.straps.board c f.body → ¬(c = .handoff ∧ s.isHead = true) →
          ∃ t, exec (messageCommand c f) s = .next t ∧ t.line.dispatching = true ∧
            t.line.slots = s.line.slots)))) ∧
  (∀ (f : Frame) (s : State), s.resetAsserted = false →
    (s.isOtherStation f.dest = true → exec (.answer f) s = .next s) ∧
    (s.isOtherStation f.dest = false ∨ ¬s.canTake .answer f → exec (.answerSnoop f) s = .next s) ∧
    (s.canTake .answer f → s.isOtherStation f.dest = true →
      (¬bodyOk s.straps.board .answer f.body → exec (.answerSnoop f) s = .next s.frameRefused) ∧
      (bodyOk s.straps.board .answer f.body → ∃ t, exec (.answerSnoop f) s = .next t ∧
        t.line.dispatching = true ∧ t.line.slots = s.line.slots)))

/-- R6, R27 to R30, R57: a Print at the quote table and the cells. -/
def Obligations.PrintUpdatesRecord : Prop :=
  ∀ (f : Frame) (m : PrintMsg) (s : State), s.canTake .print f → f.dest = 0 →
    readPrint f = some m →
    ∃ t, exec (.print f) s = .next t ∧
      (m.kind = .late ∨ findRecord m.symbol s.table = none → t.table = s.table ∧ t.cells = s.cells ∧
        t.terminals = s.terminals) ∧
      (∀ r, m.kind ≠ .late → findRecord m.symbol s.table = some r →
        findRecord m.symbol t.table = some { r with
          last := some ⟨m.price, m.lots, newTick m.price r.last⟩
          setter := some ⟨f.origin, m.id.serial⟩
          prior := r.last
          state := if m.kind = .opening ∧ (r.state = .delayed ∨ r.state = .closed) then .opened
            else r.state
          suspect := false
          age := 0 } ∧
        (∀ z, z ≠ m.symbol → findRecord z t.table = findRecord z s.table) ∧
        t.table.map QuoteRecord.symbol = s.table.map QuoteRecord.symbol ∧
        (r.state = .halted ∨ (r.state = .delayed ∧ m.kind = .regular) → t.cells = s.cells) ∧
        (¬(r.state = .halted ∨ (r.state = .delayed ∧ m.kind = .regular)) →
          (newTick m.price r.last = .plus → t.cells = s.cells.map (fun c =>
            if r.pins.contains c.number then
              { c with pattern := .rise, position := 0, repeats := false } else c)) ∧
          (newTick m.price r.last = .minus → t.cells = s.cells.map (fun c =>
            if r.pins.contains c.number then
              { c with pattern := .fall, position := 0, repeats := false } else c)) ∧
          (newTick m.price r.last ≠ .plus → newTick m.price r.last ≠ .minus →
            t.cells = s.cells.map (fun c =>
              if r.pins.contains c.number ∧ r.state ≠ .opened ∧ m.kind = .opening then
                { c with pattern := .steady, position := 0, repeats := false } else c)))) ∧
      t.resetAsserted = false ∧ t.straps = s.straps ∧ t.tickCount = s.tickCount ∧
      t.crawl = s.crawl ∧ t.lamps = s.lamps ∧ t.askTag = s.askTag ∧ t.line = s.dispatched.line ∧
      t.lineSilence = s.lineSilence ∧ t.faultLamp = s.faultLamp

/-- R63, R65, R66: a Print at the composer: heard and admitted, heard and refused at overflow, or not
heard. -/
def Obligations.PrintAdmittedToTape : Prop :=
  ∀ (f : Frame) (m : PrintMsg) (s : State), s.canTake .print f → f.dest = 0 →
    readPrint f = some m →
    ∃ t, exec (.print f) s = .next t ∧
      (s.isHead = false → t.composer = s.composer ∧
        t.tallies.tapeRefused = s.tallies.tapeRefused) ∧
      (∀ r, s.straps.ribbon = some r → s.straps.segment = 0 →
        (m.mask.getLsbD r.val = false → t.composer = s.composer ∧
          t.tallies.tapeRefused = s.tallies.tapeRefused) ∧
        (m.mask.getLsbD r.val = true → s.composer.printQueue.length < 64 →
          t.composer = { s.composer with
            printQueue := s.composer.printQueue ++
              [.print m.symbol m.price m.lots m.kind ⟨f.origin, m.id.serial⟩ s.tickCount]
            idleTimer := none } ∧
          t.tallies.tapeRefused = s.tallies.tapeRefused) ∧
        (m.mask.getLsbD r.val = true → 64 ≤ s.composer.printQueue.length →
          t.composer = { s.composer with overflow := true } ∧
          t.tallies.tapeRefused = saturate s.tallies.tapeRefused)) ∧
      t.crawl = s.crawl ∧ t.line = s.dispatched.line ∧ t.lamps = s.lamps

/-- R141, R172, R173: a Print of a held symbol fires each active terminal's armed limit that it
crosses, and leaves every other terminal as it was. -/
def Obligations.PrintFiresLimits : Prop :=
  ∀ (f : Frame) (m : PrintMsg) (r : QuoteRecord) (s : State), s.canTake .print f → f.dest = 0 →
    readPrint f = some m → m.kind ≠ .late → findRecord m.symbol s.table = some r →
    ∃ t, exec (.print f) s = .next t ∧
      (∀ (u : Fin 4) (l : Limit), s.active u = true → (s.term u).armedLimit m.symbol = some l →
        (l.direction = .above ∧ l.price ≤ m.price ∨ l.direction = .below ∧ m.price ≤ l.price) →
        t.term u = { s.term u with
          watch := (s.term u).watch.map (fun e =>
            if e.symbol = m.symbol then { e with limit := none } else e)
          alerts := (if 4 ≤ (s.term u).alerts.length then (s.term u).alerts.tail
            else (s.term u).alerts) ++ [⟨m.symbol, m.price, l.direction⟩]
          beeper := max (s.term u).beeper 8
          beeperOn := true }) ∧
      (∀ u : Fin 4, s.active u = false ∨ (s.term u).armedLimit m.symbol = none ∨
        (∃ l, (s.term u).armedLimit m.symbol = some l ∧
          ¬(l.direction = .above ∧ l.price ≤ m.price ∨ l.direction = .below ∧ m.price ≤ l.price)) →
        t.term u = s.term u) ∧
      ((∀ u : Fin 4, (s.term u).alerts.length < 4) →
        t.tallies.keysAlertsDropped = s.tallies.keysAlertsDropped)

/-- R31, R32, R58, R67: a Quote writes bid and ask and nothing else; a Status sets the state, hands a
change to the linked cells, and at a head that hears it admits a halt or a delay to the tape. -/
def Obligations.QuoteAndStatus : Prop :=
  ∀ (f : Frame) (s : State), f.dest = 0 →
    (∀ m, s.canTake .quote f → readQuote f = some m → exec (.quote f) s = .next { s.dispatched with
      table := s.table.map (fun r =>
        if r.symbol = m.symbol then { r with bid := m.bid, ask := m.ask } else r) }) ∧
    (∀ m, s.canTake .status f → readStatus f = some m → ∃ t, exec (.status f) s = .next t ∧
      t.table = s.table.map (fun r =>
        if r.symbol = m.symbol ∧ (findRecord m.symbol s.table).isSome ∧
            (findRecord m.symbol s.table).map QuoteRecord.state ≠ some m.state then
          { r with state := m.state } else r) ∧
      (findRecord m.symbol s.table = none → t.cells = s.cells) ∧
      (∀ r, findRecord m.symbol s.table = some r →
        (r.state = m.state → t.cells = s.cells) ∧
        (r.state ≠ m.state → t.cells = s.cells.map (fun c =>
          if r.pins.contains c.number then
            { c with pattern := if m.state = .halted then .halt
                       else if m.state = .delayed then .delay else .steady
                     position := 0
                     repeats := decide (m.state = .halted ∨ m.state = .delayed) }
          else c))) ∧
      (s.isHead = false ∨ m.state = .opened ∨ m.state = .closed →
        t.composer = s.composer ∧ t.tallies = s.tallies) ∧
      (∀ r, s.straps.ribbon = some r → m.mask.getLsbD r.val = false →
        t.composer = s.composer ∧ t.tallies = s.tallies) ∧
      (∀ r, s.straps.ribbon = some r → s.straps.segment = 0 → m.mask.getLsbD r.val = true →
        m.state = .halted ∨ m.state = .delayed →
        (s.composer.printQueue.length < 64 → t.composer = { s.composer with
          printQueue := s.composer.printQueue ++ [.status m.symbol m.state], idleTimer := none } ∧
          t.tallies = s.tallies) ∧
        (64 ≤ s.composer.printQueue.length → t.composer = { s.composer with overflow := true } ∧
          t.tallies = { s.tallies with tapeRefused := saturate s.tallies.tapeRefused })) ∧
      t.resetAsserted = false ∧ t.straps = s.straps ∧ t.tickCount = s.tickCount ∧
      t.crawl = s.crawl ∧ t.lamps = s.lamps ∧ t.terminals = s.terminals ∧ t.askTag = s.askTag ∧
      t.line = s.dispatched.line ∧ t.lineSilence = s.lineSilence ∧ t.faultLamp = s.faultLamp)

/-- R33, R34, R68: a Cancel restores the last from the prior group, or sets suspect, where it names
the last-setter, and at a head that hears it withdraws the oldest print item it names or is itself
admitted. -/
def Obligations.CancelUndoesPrint : Prop :=
  ∀ (f : Frame) (m : CancelMsg) (s : State), s.canTake .cancel f → f.dest = 0 →
    readCancel f = some m →
    ∃ t, exec (.cancel f) s = .next t ∧
      t.table = s.table.map (fun r =>
        if r.symbol = m.symbol ∧ r.setter = some m.id then
          (if r.prior.isSome then { r with last := r.prior, prior := none, setter := none }
           else { r with suspect := true })
        else r) ∧
      (s.isHead = false → t.composer = s.composer ∧ t.tallies = s.tallies) ∧
      (∀ r, s.straps.ribbon = some r → s.straps.segment = 0 →
        (m.mask.getLsbD r.val = false → t.composer = s.composer ∧ t.tallies = s.tallies) ∧
        (∀ (before after : List TapeItem) (i : TapeItem), m.mask.getLsbD r.val = true →
          s.composer.printQueue = before ++ i :: after →
          (∀ j ∈ before, j.isPrint m.id = false) → i.isPrint m.id = true →
          t.composer = { s.composer with
            printQueue := before ++ after
            idleTimer := if before ++ after = [] then some 0 else s.composer.idleTimer } ∧
          t.tallies = s.tallies) ∧
        (m.mask.getLsbD r.val = true → (∀ j ∈ s.composer.printQueue, j.isPrint m.id = false) →
          (s.composer.printQueue.length < 64 → t.composer = { s.composer with
            printQueue := s.composer.printQueue ++ [.cancel m.symbol m.price m.lots]
            idleTimer := none } ∧ t.tallies = s.tallies) ∧
          (64 ≤ s.composer.printQueue.length → t.composer = { s.composer with overflow := true } ∧
            t.tallies = { s.tallies with tapeRefused := saturate s.tallies.tapeRefused }))) ∧
      t.resetAsserted = false ∧ t.straps = s.straps ∧ t.tickCount = s.tickCount ∧
      t.cells = s.cells ∧ t.crawl = s.crawl ∧ t.lamps = s.lamps ∧ t.terminals = s.terminals ∧
      t.askTag = s.askTag ∧ t.line = s.dispatched.line ∧ t.lineSilence = s.lineSilence ∧
      t.faultLamp = s.faultLamp

/-- R21, R22, R25, R36 to R38, R60: a Plan refreshes a reference, clears a cell or relinks it: the old
record loses the cell, the new one, installed at the front after an eviction where 64 are held, gains it;
and the cell's pattern follows the linked record's state. An eviction removes the least recent record that
no cell and no terminal pins. -/
def Obligations.PlanLinksCell : Prop :=
  (∀ (before after : List QuoteRecord) (r : QuoteRecord), r.pins = [] → r.refs = 0 →
    (∀ q ∈ after, q.pins ≠ [] ∨ 0 < q.refs) → evict (before ++ r :: after) = before ++ after) ∧
  ∀ (f : Frame) (m : PlanMsg) (s : State), s.canTake .plan f →
    s.isOwnNumber f.dest = true → readPlan s.straps.board f = some m →
    ∃ t, exec (.plan f) s = .next t ∧
      (m.symbol = none → s.linkOf m.cell = none → t.table = s.table) ∧
      (∀ old, m.symbol = none → s.linkOf m.cell = some old →
        t.table = s.table.map (fun r =>
          if r.symbol = old then { r with pins := r.pins.filter (fun k => k != m.cell) } else r)) ∧
      (∀ y, m.symbol = some y → s.linkOf m.cell = some y →
        t.table = s.table.map (fun r =>
          if r.symbol = y ∧ m.reference.isSome then { r with reference := m.reference } else r)) ∧
      (∀ (y : Symbol) (unlinked : List QuoteRecord), m.symbol = some y →
        (s.linkOf m.cell = none ∧ unlinked = s.table) ∨
          (∃ old, s.linkOf m.cell = some old ∧ y ≠ old ∧ unlinked = s.table.map (fun r =>
            if r.symbol = old then { r with pins := r.pins.filter (fun k => k != m.cell) } else r)) →
        (∀ r, findRecord y unlinked = some r →
          t.table = unlinked.map (fun q => if q.symbol = y then { q with
            pins := cellNumbers.filter (fun k => k == m.cell || q.pins.contains k)
            reference := if m.reference.isSome then m.reference else q.reference } else q)) ∧
        (findRecord y unlinked = none →
          t.table = { symbol := y, reference := m.reference, last := none, setter := none,
                      prior := none, bid := none, ask := none, state := .opened, suspect := false,
                      age := 65535, pins := [m.cell], refs := 0 } ::
            (if unlinked.length < 64 then unlinked else evict unlinked))) ∧
      t.cells = s.cells.map (fun c => if c.number = m.cell then
        { number := c.number
          link := m.symbol
          pattern := if linkedState m.symbol t.table = some .halted then .halt
            else if linkedState m.symbol t.table = some .delayed then .delay else .steady
          position := 0
          repeats := decide (linkedState m.symbol t.table = some .halted ∨
            linkedState m.symbol t.table = some .delayed) } else c) ∧
      t.resetAsserted = false ∧ t.straps = s.straps ∧ t.tickCount = s.tickCount ∧
      t.composer = s.composer ∧ t.crawl = s.crawl ∧ t.lamps = s.lamps ∧
      t.terminals = s.terminals ∧ t.askTag = s.askTag ∧ t.line = s.dispatched.line ∧
      t.tallies = s.tallies ∧ t.lineSilence = s.lineSilence ∧ t.faultLamp = s.faultLamp

/-- R42, R44, R88, R116, R134, R156, R175, R196, R201: what a taken Day Start resets and what it
keeps. (That the pace timer's counter is 0 at a station other than a head too is the model's choice, log
entry 34.) -/
def Obligations.DayStartResetsBlocks : Prop :=
  ∀ (f : Frame) (s : State), s.canTake .dayStart f →
    (f.dest = 0 ∨ s.isOwnNumber f.dest = true) → f.body = [] →
    ∃ t, exec (.dayStart f) s = .next t ∧
      t.table = [] ∧
      t.cells = s.cells.map (fun c =>
        { number := c.number, link := none, pattern := .steady, position := 0, repeats := false }) ∧
      t.composer = { printQueue := [], recent := [], level := 0, idleTimer := some 0,
                     overflow := false, nextIndex := 0, nextEntry := none } ∧
      t.crawl.hold = [] ∧ t.crawl.stepCount = 0 ∧ t.crawl.slew = 0 ∧ t.crawl.phase = 0 ∧
      t.crawl.paceLevel = 0 ∧ t.crawl.period = 1920 ∧ t.crawl.staged = none ∧
      t.crawl.counter = 0 ∧ t.crawl.paceHeard = false ∧ t.crawl.offset = s.crawl.offset ∧
      (s.isHead = true → s.crawl.segState = .running → t.crawl.segState = .running) ∧
      (s.isHead = false → s.crawl.segState ≠ .dark →
        t.crawl.segState = .waiting ∧ t.crawl.silence = none) ∧
      (s.crawl.segState = .dark → t.crawl.segState = .dark) ∧
      (∀ u : Fin 4, s.active u = true →
        t.term u = { Terminal.atReset with
          debounce := (s.term u).debounce, ghostLock := (s.term u).ghostLock,
          beeper := (s.term u).beeper, beeperOn := (s.term u).beeperOn,
          display := (s.term u).display }) ∧
      (∀ u : Fin 4, s.active u = false → t.term u = s.term u) ∧
      t.line.tapeQueue = (if s.sendingTape then s.line.tapeQueue.take 1 else []) ∧
      (s.isHead = false ∨ s.listenOnly = true → t.line.generalQueue =
        (if s.sendingGeneral then s.line.generalQueue.take 1 else [])) ∧
      (∀ r, s.straps.ribbon = some r → s.straps.segment = 0 → s.listenOnly = false →
        t.line.generalQueue =
          (if s.sendingGeneral then s.line.generalQueue.take 1 else []) ++ [⟨0, .pace r, 0⟩]) ∧
      t.crawl.pendingPace = false ∧
      t.line.slots = s.line.slots ∧ t.line.dispatching = true ∧
      t.line.sending = s.line.sending ∧
      t.line.completed = s.line.completed ∧ t.line.holdDrive = s.line.holdDrive ∧
      t.line.assembler = s.line.assembler ∧ t.line.assembly = s.line.assembly ∧
      t.line.quiet = s.line.quiet ∧ t.line.ownFrameWait = s.line.ownFrameWait ∧
      t.line.holding = s.line.holding ∧ t.line.bitTime = s.line.bitTime ∧
      t.straps = s.straps ∧ t.tickCount = s.tickCount ∧ t.lamps = s.lamps ∧ t.askTag = s.askTag ∧
      t.tallies = s.tallies ∧ t.lineSilence = s.lineSilence ∧ t.faultLamp = s.faultLamp

/-- R163, R164: a taken Ask queues one Answer where the station may answer, unless one with its key
is held; a full queue drops it and counts. -/
def Obligations.AskQueuesAnswer : Prop :=
  ∀ (f : Frame) (m : AskMsg) (s : State), s.canTake .ask f → f.dest = 0 →
    s.isOwnNumber f.origin = false → readAsk f = some m →
    (answers m.symbol s = true ↔ s.listenOnly = false ∧
      ∃ r, findRecord m.symbol s.table = some r ∧ r.pins ≠ []) ∧
    (answers m.symbol s = false → exec (.ask f) s = .next s.dispatched) ∧
    (answers m.symbol s = true →
      s.line.generalQueue.any (TxFrame.isAnswerTo f.origin m.terminal m.tag) = true →
      exec (.ask f) s = .next s.dispatched) ∧
    (answers m.symbol s = true →
      s.line.generalQueue.any (TxFrame.isAnswerTo f.origin m.terminal m.tag) = false →
      (s.line.generalQueue.length < 4 → exec (.ask f) s = .next { s with line := { s.dispatched.line with
        generalQueue := s.line.generalQueue ++
          [⟨f.origin, .answer m.terminal m.tag m.symbol, 0⟩] } }) ∧
      (4 ≤ s.line.generalQueue.length → exec (.ask f) s = .next { s.dispatched with
        tallies := { s.tallies with framesAbandoned := saturate s.tallies.framesAbandoned } }))

/-- R21, R22, R39, R40, R140, R147, R161, R162: a matching Answer ends the ask, installs the record (after
an eviction where 64 are held) or merges it, moves it to the front and shows it, and the typeahead that
waited is then taken key by key; a stale Answer is counted and does nothing else. -/
def Obligations.AnswerCompletesAsk : Prop :=
  ∀ (f : Frame) (m : AnswerMsg) (s : State), s.canTake .answer f →
    s.isOwnNumber f.dest = true → readAnswer f = some m →
    (s.active m.terminal = false ∨ (s.term m.terminal).state ≠ .asking ∨
        (∀ a, (s.term m.terminal).ask = some a → ¬(a.tag = m.tag ∧ a.symbol = m.symbol)) →
      exec (.answer f) s = .next { s.dispatched with tallies := { s.tallies with
        framesDiscarded := saturate s.tallies.framesDiscarded } }) ∧
    (∀ a, s.active m.terminal = true → (s.term m.terminal).state = .asking →
      (s.term m.terminal).ask = some a → a.tag = m.tag → a.symbol = m.symbol →
      ((s.term m.terminal).keyQueue = [] →
        ∃ t r, exec (.answer f) s = .next t ∧
          t.terminals = s.terminals.set m.terminal { s.term m.terminal with
            ask := none, message := none, messageTimer := 0, shown := some m.symbol, entry := [],
            state := .showing } ∧
          r.symbol = m.symbol ∧ r.reference = m.reference ∧ r.bid = m.bid ∧ r.ask = m.ask ∧
          r.state = m.state ∧
          (∀ q, findRecord m.symbol s.table = some q →
            t.table = r :: s.table.filter (fun z => z.symbol != m.symbol) ∧
            r.last = (if q.last.isSome then q.last else m.last) ∧ r.setter = q.setter ∧
            r.prior = q.prior ∧ r.suspect = q.suspect ∧ r.age = q.age ∧ r.pins = q.pins ∧
            r.refs = q.refs + 1 ∧
            (q.state = m.state → t.cells = s.cells) ∧
            (q.state ≠ m.state → t.cells = s.cells.map (fun c =>
              if q.pins.contains c.number then
                { c with pattern := if m.state = .halted then .halt
                           else if m.state = .delayed then .delay else .steady
                         position := 0
                         repeats := decide (m.state = .halted ∨ m.state = .delayed) }
              else c))) ∧
          (findRecord m.symbol s.table = none →
            t.table = r :: (if s.table.length < 64 then s.table else evict s.table) ∧
            r.last = m.last ∧ r.setter = none ∧ r.prior = none ∧ r.suspect = false ∧
            r.age = 65535 ∧ r.pins = [] ∧ r.refs = 1 ∧ t.cells = s.cells) ∧
          t.line = (s.dispatched.withdraw (TxFrame.isAskOf m.terminal a.tag)).line ∧
          t.resetAsserted = false ∧ t.straps = s.straps ∧ t.tickCount = s.tickCount ∧
          t.composer = s.composer ∧ t.crawl = s.crawl ∧ t.lamps = s.lamps ∧ t.askTag = s.askTag ∧
          t.tallies = s.tallies ∧ t.lineSilence = s.lineSilence ∧ t.faultLamp = s.faultLamp) ∧
      (∀ ks, (s.term m.terminal).keyQueue = ks → ks.length ≤ 4 → (∀ k ∈ ks, k ≠ .clear) →
        exec (.answer f) s =
          thenRun (exec (.answer f) (s.setTerm m.terminal { s.term m.terminal with keyQueue := [] }))
            (keysInTurn m.terminal ks)))

/-- R166, R189: a snooped Answer withdraws this station's queued Answer with its ask key unless that
frame is on the line, and does nothing else. (Its completion has done so before: FrameCompleteDisposes.) -/
def Obligations.SnoopedAnswerSuppresses : Prop :=
  ∀ (f : Frame) (m : AnswerMsg) (s : State), s.canTake .answer f →
    s.isOtherStation f.dest = true → readAnswer f = some m →
    (∀ (before after : List TxFrame) (g : TxFrame), s.line.sending = none →
      s.line.generalQueue = before ++ g :: after →
      g.isAnswerTo f.dest m.terminal m.tag = true →
      (∀ h ∈ before ++ after, h.isAnswerTo f.dest m.terminal m.tag = false) →
      exec (.answerSnoop f) s = .next { s with
        line := { s.dispatched.line with generalQueue := before ++ after } }) ∧
    (∀ (g : TxFrame) (after : List TxFrame), s.sendingGeneral = true →
      s.line.generalQueue = g :: after →
      exec (.answerSnoop f) s = .next { s with line := { s.dispatched.line with
        generalQueue := g :: after.filter (fun h => !h.isAnswerTo f.dest m.terminal m.tag) } }) ∧
    ((∀ h ∈ s.line.generalQueue, h.isAnswerTo f.dest m.terminal m.tag = false) →
      exec (.answerSnoop f) s = .next s.dispatched)

/-- R202 to R204: a taken Tally Query queues one reply, fixed as the tallies, the segment state and
the level stand, and clears the tallies when its flag is set; a full queue counts and clears
nothing. -/
def Obligations.TallyQueryReports : Prop :=
  ∀ (f : Frame) (b : Byte) (s : State), s.canTake .tallyQuery f → s.isOwnNumber f.dest = true →
    f.body = [b] →
    (4 ≤ s.line.generalQueue.length → exec (.tallyQuery f) s = .next { s.dispatched with tallies :=
      { s.tallies with framesAbandoned := saturate s.tallies.framesAbandoned } }) ∧
    (s.line.generalQueue.length < 4 → ∃ status counts,
      exec (.tallyQuery f) s = .next { s with
        line := { s.dispatched.line with generalQueue := s.line.generalQueue ++
          [⟨f.origin, .tally status counts, 0⟩] }
        tallies := if b.getLsbD 0 then Tallies.zero else s.tallies } ∧
      counts = [s.tallies.goodFrames, s.tallies.classCorrections, s.tallies.framesDiscarded,
        s.tallies.arbitrationLosses, s.tallies.holdsAsserted, s.tallies.framesAbandoned,
        s.tallies.tapeRefused, s.tallies.charsDropped, s.tallies.lateChars, s.tallies.paceJumps,
        s.tallies.asksTimedOut, s.tallies.keysAlertsDropped] ∧
      status.toNat = (2 * s.crawl.segState.code + 8 *
        (if s.straps.ribbon = none then 0 else if s.straps.segment = 0 then s.composer.level
         else s.crawl.paceLevel)) % 256)

/-! ### The crawl unit -/

/-- R94 to R96, R105 to R110: one crawl step of a moving segment: the step count, the removal test and the
handing on of every batch that is due; a held character that the window has not passed, or that is unsent
where another segment follows, stays. Nothing moves in WAITING or DARK. -/
def Obligations.CrawlStepAdvances : Prop :=
  ∀ s : State, s.resetAsserted = false →
    (s.moving = false → exec .crawlStep s = .next s) ∧
    (s.moving = true → s.crawl.hold.length ≤ 48 → ∃ t, exec .crawlStep s = .next t ∧
      t.crawl.counter = 0 ∧ t.crawl.period = s.crawl.staged.getD s.crawl.period ∧
      t.crawl.staged = none ∧
      (s.isHead = true ∨ s.crawl.slew = 0 → t.crawl.stepCount = s.crawl.stepCount + 1 ∧
        t.crawl.slew = s.crawl.slew ∧ t.crawl.phase = s.crawl.phase) ∧
      (s.isHead = false → s.crawl.slew ≠ 0 → s.crawl.phase < 3 →
        t.crawl.stepCount = s.crawl.stepCount + 1 ∧ t.crawl.slew = s.crawl.slew ∧
        t.crawl.phase = s.crawl.phase + 1) ∧
      (s.isHead = false → 0 < s.crawl.slew → 3 ≤ s.crawl.phase →
        t.crawl.stepCount = s.crawl.stepCount + 2 ∧ t.crawl.slew = s.crawl.slew - 1 ∧
        t.crawl.phase = 0) ∧
      (s.isHead = false → s.crawl.slew < 0 → 3 ≤ s.crawl.phase →
        t.crawl.stepCount = s.crawl.stepCount ∧ t.crawl.slew = s.crawl.slew + 1 ∧
        t.crawl.phase = 0) ∧
      (∃ h, judged { s with crawl := { t.crawl with
          hold := s.crawl.hold, pendingPace := s.crawl.pendingPace } } h ∧
        h.crawl.hold = t.crawl.hold ∧ h.line.tapeQueue = t.line.tapeQueue) ∧
      (∀ b ∈ s.crawl.hold, 0 ≤ sdiff (b.entry + 5) t.leftCol →
        ∃ c ∈ t.crawl.hold, c = b ∨ c = { b with sent := true }) ∧
      (∀ b ∈ s.crawl.hold, b.sent = false → t.isTail = false →
        t.line.tapeQueue = s.line.tapeQueue → s.listenOnly = false → s.straps.ribbon.isSome →
        b ∈ t.crawl.hold) ∧
      (∀ c ∈ t.crawl.hold, c.passed t.leftCol = true → c.sent = false ∧ t.isTail = false) ∧
      (∀ c ∈ t.crawl.hold, ∃ b ∈ s.crawl.hold, c.index = b.index ∧ c.entry = b.entry ∧
        c.glyph = b.glyph ∧ c.attr = b.attr ∧ (b.sent = true → c.sent = true)) ∧
      (s.listenOnly = true ∨ t.line.tapeQueue.length < 8 → dueBatch t = []) ∧
      (s.isTail = true ∨ s.listenOnly = true → t.line.tapeQueue = s.line.tapeQueue) ∧
      (s.isHead = false ∨ (s.crawl.stepCount + 1).toNat % 256 ≠ 0 →
        t.line.generalQueue = s.line.generalQueue ∧ t.crawl.pendingPace = s.crawl.pendingPace) ∧
      (∀ r, s.straps.ribbon = some r → s.straps.segment = 0 → s.listenOnly = false →
        (s.crawl.stepCount + 1).toNat % 256 = 0 →
        (waitingFrames s.sendingGeneral s.line.generalQueue).any TxFrame.isPace = false →
        (s.line.generalQueue.length < 4 →
          t.line.generalQueue = s.line.generalQueue ++ [⟨0, .pace r, 0⟩]) ∧
        (4 ≤ s.line.generalQueue.length → t.line.generalQueue = s.line.generalQueue ∧
          t.crawl.pendingPace = true)) ∧
      t.crawl.segState = s.crawl.segState ∧ t.crawl.offset = s.crawl.offset ∧
      t.crawl.paceLevel = s.crawl.paceLevel ∧ t.crawl.silence = s.crawl.silence ∧
      t.resetAsserted = false ∧ t.straps = s.straps ∧ t.tickCount = s.tickCount ∧
      t.table = s.table ∧ t.cells = s.cells ∧ t.composer = s.composer ∧ t.lamps = s.lamps ∧
      t.terminals = s.terminals ∧ t.askTag = s.askTag ∧ t.line.sending = s.line.sending ∧
      t.line.slots = s.line.slots ∧ t.tallies = s.tallies ∧ t.lineSilence = s.lineSilence ∧
      t.faultLamp = s.faultLamp)

/-- R110: a pending Pace request is met once the general queue has room, and is cleared. -/
def Obligations.PendingPaceIsQueued : Prop :=
  ∀ s : State, s.resetAsserted = false →
    (∀ r, s.straps.ribbon = some r → s.crawl.pendingPace = true → s.line.generalQueue.length < 4 →
      exec .pendingPaceQueued s = .next { s with
        line := { s.line with generalQueue := s.line.generalQueue ++ [⟨0, .pace r, 0⟩] }
        crawl := { s.crawl with pendingPace := false } }) ∧
    (s.crawl.pendingPace = false ∨ 4 ≤ s.line.generalQueue.length ∨ s.straps.ribbon = none →
      exec .pendingPaceQueued s = .next s)

/-- R92, R93: 128 floor ticks without a Pace turn RUNNING to COASTING, 512 turn COASTING to WAITING;
the two expiries alone do nothing before (log entry 3), and the slew's phase stays (log entry 33). -/
def Obligations.SilenceEndsRunning : Prop :=
  ∀ s : State, s.resetAsserted = false →
    (∀ n, s.crawl.silence = some n → s.crawl.segState = .running → 128 ≤ n →
      exec .silenceCoasting s = .next { s with crawl := { s.crawl with segState := .coasting } }) ∧
    (∀ n, s.crawl.silence = some n → s.crawl.segState = .coasting → 512 ≤ n →
      exec .silenceWaiting s = .next { s with crawl := { s.crawl with
        segState := .waiting, hold := [], slew := 0, silence := none } }) ∧
    (s.crawl.silence = none ∨ s.crawl.segState ≠ .running ∨
        (∃ n, s.crawl.silence = some n ∧ n < 128) → exec .silenceCoasting s = .next s) ∧
    (s.crawl.silence = none ∨ s.crawl.segState ≠ .coasting ∨
        (∃ n, s.crawl.silence = some n ∧ n < 512) → exec .silenceWaiting s = .next s) ∧
    (∀ n, s.crawl.silence = some n → s.crawl.segState = .running → n < 127 →
      s.crawl.silenceTick = { s.crawl with silence := some (n + 1) }) ∧
    (s.crawl.silence = some 127 → s.crawl.segState = .running →
      s.crawl.silenceTick = { s.crawl with silence := some 128, segState := .coasting }) ∧
    (∀ n, s.crawl.silence = some n → s.crawl.segState = .coasting → n < 511 →
      s.crawl.silenceTick = { s.crawl with silence := some (n + 1) }) ∧
    (s.crawl.silence = some 511 → s.crawl.segState = .coasting →
      s.crawl.silenceTick = { s.crawl with
        segState := .waiting, hold := [], slew := 0, silence := none })

/-- R99, R102: a character that is not dropped keeps the law of the hold: the indices rise, the entry
columns lie 6 or more apart, and at most 48 characters are held; and every step keeps that law, where the
indices and entry columns of the hold, and of a Handoff in front of the queue, lie within 2^22 of each
other, and where at a head the next character composed follows the last one held. -/
def Obligations.PlacementKeepsHoldLaw : Prop :=
  (∀ (c : TapeChar) (hold : List TapeChar), holdLawful hold → hold.length ≤ 48 →
    dropsChar c hold = false →
    holdLawful (insertChar c hold) ∧ (insertChar c hold).length ≤ 48 ∧
    (∀ b, b ∈ insertChar c hold ↔ b = c ∨ b ∈ hold)) ∧
  (∀ (index entry : Col) (s t : State), holdLawful s.crawl.hold → s.crawl.hold.length ≤ 48 →
    holdWithin index entry s.crawl.hold →
    (∀ f rest m, s.pending = .handoff f :: rest → readHandoff f = some m →
      ∀ i c, m.chars[i]? = some c → (m.first + BitVec.ofNat 24 i - index).toNat < 4194304 ∧
        (c.entry - entry).toNat < 4194304) →
    (s.isHead = true → composerFollows s ∧ nextEntryNear s) →
    step s = .next t → holdLawful t.crawl.hold ∧ t.crawl.hold.length ≤ 48)

/-- R91, R100 to R108: a Handoff sets the offset, counts a change of it, and places its 1 to 4 characters
one at a time; a segment that was waiting with a Pace heard enters RUNNING first, and its hold is judged;
a moving segment then hands on every batch that is due (that the due test follows the last placement is the
model's choice, log entry 11, and that no period is staged on entry to RUNNING is its reading, log
entry 16). -/
def Obligations.HandoffPlacesCharacters : Prop :=
  ∀ (f : Frame) (m : HandoffMsg) (s : State), s.canTake .handoff f →
    s.isOwnSegment f.dest = true → s.isHead = false → readHandoff f = some m →
    1 ≤ m.chars.length ∧ m.chars.length ≤ 4 ∧ ∃ a b t, exec (.handoff f) s = .next t ∧
      (s.crawl.offset = none → s.crawl.segState = .waiting → s.crawl.paceHeard = true →
        judged { s.dispatched with crawl := { s.crawl with
          offset := some m.offset, segState := .running, silence := some 0, counter := 0,
          period := pacePeriod s.crawl.paceLevel, staged := none } } a) ∧
      (s.crawl.offset = none → s.crawl.segState ≠ .waiting ∨ s.crawl.paceHeard = false →
        a = { s.dispatched with crawl := { s.crawl with offset := some m.offset } }) ∧
      (s.crawl.offset = some m.offset → a = s.dispatched) ∧
      (∀ o, s.crawl.offset = some o → o ≠ m.offset → a = { s.dispatched with
        crawl := { s.crawl with offset := some m.offset }
        tallies := { s.tallies with paceJumps := saturate s.tallies.paceJumps } }) ∧
      placesChars m.first m.chars a b ∧
      (s.crawl.hold.length ≤ 48 → b.crawl.hold.length ≤ 48) ∧
      (a.moving = true → handsOver b t) ∧ (a.moving = false → t = b) ∧
      t.crawl.offset = some m.offset ∧
      t.tallies.paceJumps = (if s.crawl.offset.isSome ∧ s.crawl.offset ≠ some m.offset then
        saturate s.tallies.paceJumps else s.tallies.paceJumps) ∧
      (s.crawl.segState = .waiting → s.crawl.offset = none → s.crawl.paceHeard = true →
        t.crawl.segState = .running ∧ t.crawl.silence = some 0 ∧ t.crawl.counter = 0 ∧
        t.crawl.period = pacePeriod s.crawl.paceLevel) ∧
      (¬(s.crawl.segState = .waiting ∧ s.crawl.offset = none ∧ s.crawl.paceHeard = true) →
        t.crawl.segState = s.crawl.segState ∧ t.crawl.silence = s.crawl.silence ∧
        t.crawl.counter = s.crawl.counter ∧ t.crawl.period = s.crawl.period) ∧
      t.crawl.stepCount = s.crawl.stepCount ∧ t.crawl.slew = s.crawl.slew ∧
      t.crawl.paceLevel = s.crawl.paceLevel ∧
      t.straps = s.straps ∧ t.tickCount = s.tickCount ∧ t.table = s.table ∧ t.cells = s.cells ∧
      t.composer = s.composer ∧ t.lamps = s.lamps ∧ t.terminals = s.terminals ∧
      t.askTag = s.askTag ∧ t.line.generalQueue = s.line.generalQueue ∧
      t.line.slots = s.line.slots ∧ t.lineSilence = s.lineSilence ∧ t.faultLamp = s.faultLamp

/-- R91, R92, R96, R105 to R108, R111 to R114: a Pace for this segment's ribbon: the step count is taken,
corrected by a slew, or jumped, the slew's phase starts again at 0, and where the segment enters RUNNING or T jumps, its hold is judged; one for
another ribbon, at a head or at a station with no ribbon does nothing. (That no period is staged on entry
to RUNNING, and that the phase stays in WAITING, are the model's readings: log entries 16 and 33.) -/
def Obligations.PaceCorrectsSteps : Prop :=
  ∀ (f : Frame) (m : PaceMsg) (s : State), s.canTake .pace f → f.dest = 0 →
    readPace f = some m →
    (s.straps.ribbon ≠ some m.ribbon ∨ s.straps.segment = 0 → exec (.pace f) s = .next s.dispatched) ∧
    (s.straps.ribbon = some m.ribbon → s.straps.segment ≠ 0 →
      (s.crawl.segState = .waiting → s.crawl.offset = none →
        exec (.pace f) s = .next { s.dispatched with crawl := { s.crawl with
          paceHeard := true, paceLevel := m.level, staged := some (pacePeriod m.level),
          stepCount := m.steps, slew := 0 } }) ∧
      (s.crawl.segState = .waiting → s.crawl.offset.isSome → ∃ t, exec (.pace f) s = .next t ∧
        judged { s.dispatched with crawl := { s.crawl with
          paceHeard := true, paceLevel := m.level, stepCount := m.steps, slew := 0,
          segState := .running, counter := 0, period := pacePeriod m.level, staged := none,
          silence := some 0 } } t ∧
        t.crawl.segState = .running ∧ t.crawl.stepCount = m.steps ∧ t.crawl.slew = 0 ∧
        t.crawl.paceHeard = true ∧ t.crawl.paceLevel = m.level ∧ t.crawl.counter = 0 ∧
        t.crawl.period = pacePeriod m.level ∧ t.crawl.silence = some 0 ∧
        t.crawl.offset = s.crawl.offset ∧ t.tallies = s.tallies ∧ t.composer = s.composer ∧
        t.table = s.table ∧ t.line.generalQueue = s.line.generalQueue) ∧
      (s.moving = true → -1 ≤ sdiff m.steps s.crawl.stepCount →
        sdiff m.steps s.crawl.stepCount ≤ 1 →
        exec (.pace f) s = .next { s.dispatched with crawl := { s.crawl with
          paceHeard := true, paceLevel := m.level, staged := some (pacePeriod m.level),
          silence := some 0, segState := .running, slew := 0, phase := 0 } }) ∧
      (s.moving = true → (2 ≤ sdiff m.steps s.crawl.stepCount ∧
          sdiff m.steps s.crawl.stepCount ≤ 48 ∨ -48 ≤ sdiff m.steps s.crawl.stepCount ∧
          sdiff m.steps s.crawl.stepCount ≤ -2) →
        exec (.pace f) s = .next { s.dispatched with crawl := { s.crawl with
          paceHeard := true, paceLevel := m.level, staged := some (pacePeriod m.level),
          silence := some 0, segState := .running,
          slew := sdiff m.steps s.crawl.stepCount, phase := 0 } }) ∧
      (s.moving = true → (48 < sdiff m.steps s.crawl.stepCount ∨
          sdiff m.steps s.crawl.stepCount < -48) → ∃ t, exec (.pace f) s = .next t ∧
        judged { s.dispatched with
          crawl := { s.crawl with
            paceHeard := true, paceLevel := m.level, staged := some (pacePeriod m.level),
            silence := some 0, segState := .running, stepCount := m.steps, slew := 0, phase := 0 }
          tallies := { s.tallies with paceJumps := saturate s.tallies.paceJumps } } t ∧
        t.crawl.segState = .running ∧ t.crawl.stepCount = m.steps ∧ t.crawl.slew = 0 ∧
        t.crawl.phase = 0 ∧ t.crawl.paceHeard = true ∧ t.crawl.paceLevel = m.level ∧
        t.crawl.staged = some (pacePeriod m.level) ∧ t.crawl.silence = some 0 ∧
        t.crawl.counter = s.crawl.counter ∧
        t.tallies = { s.tallies with paceJumps := saturate s.tallies.paceJumps } ∧
        (∀ c ∈ t.crawl.hold, c.passed t.leftCol = true → c.sent = false ∧ t.isTail = false) ∧
        t.composer = s.composer ∧ t.table = s.table ∧ t.cells = s.cells ∧
        t.terminals = s.terminals ∧ t.line.generalQueue = s.line.generalQueue))

/-! ### The tape composer -/

/-- R69 to R73, R80, R81, R84, R85, R110: the take of the front print item: what leaves and enters the
queue, the level with its pace and its Pace mark, and the hold, where the characters stand 6 columns apart;
with no room nothing changes. -/
def Obligations.PrintTakeComposes : Prop :=
  ∀ (y : Symbol) (price lots : Nat) (kind : PrintKind) (id : PrintId) (a : TickCount)
    (rest : List TapeItem) (s : State), s.resetAsserted = false → s.isHead = true →
    s.composer.printQueue = .print y price lots kind id a :: rest →
    (roomFor (printSet s.tickCount a s.composer y price lots kind).chars.length s = false →
      exec .printTake s = .next s) ∧
    (awaiting s ≤ 2 →
      s.crawl.hold.length + (printSet s.tickCount a s.composer y price lots kind).chars.length ≤ 48 →
      ∃ t, exec .printTake s = .next t ∧
        t.composer.printQueue = rest ∧
        t.composer.idleTimer = (if rest = [] then some 0 else s.composer.idleTimer) ∧
        t.composer.level = levelAfter s.composer.level ((s.tickCount - a).toNat / 8) ∧
        (t.composer.level = s.composer.level → t.crawl.paceLevel = s.crawl.paceLevel ∧
          t.crawl.staged = s.crawl.staged ∧ t.line.generalQueue = s.line.generalQueue ∧
          t.crawl.pendingPace = s.crawl.pendingPace) ∧
        (t.composer.level ≠ s.composer.level → t.crawl.paceLevel = t.composer.level ∧
          t.crawl.staged = some (pacePeriod t.composer.level) ∧ paceAsked s t) ∧
        composed (printSet s.tickCount a s.composer y price lots kind).chars s t ∧
        t.composer.recent = (if kind = .late ∨ (kind = .regular ∧ t.composer.level = 3 ∧
            (y, price) ∈ s.composer.recent) then s.composer.recent
          else ((y, price) :: s.composer.recent.filter (fun e => e.1 != y)).take 16) ∧
        t.composer.overflow = (s.composer.overflow &&
          !(printSet s.tickCount a s.composer y price lots kind).overflow) ∧
        t.crawl.stepCount = s.crawl.stepCount ∧ t.crawl.segState = s.crawl.segState ∧
        t.crawl.period = s.crawl.period ∧ t.crawl.counter = s.crawl.counter ∧
        t.straps = s.straps ∧ t.tickCount = s.tickCount ∧ t.table = s.table ∧ t.cells = s.cells ∧
        t.lamps = s.lamps ∧ t.terminals = s.terminals ∧ t.askTag = s.askTag ∧
        t.tallies = s.tallies ∧ t.line.tapeQueue = s.line.tapeQueue)

/-- R69, R74, R82 to R85: the take of the front cancel or status item composes its text and changes no
level. -/
def Obligations.CancelAndStatusTakes : Prop :=
  ∀ (rest : List TapeItem) (s : State), s.resetAsserted = false → s.isHead = true →
    (∀ (y : Symbol) (price lots : Nat), s.composer.printQueue = .cancel y price lots :: rest →
      awaiting s ≤ 2 → s.crawl.hold.length + (cancelText y price lots).length ≤ 48 →
      ∃ t, exec .cancelTake s = .next t ∧ t.composer.printQueue = rest ∧
        t.composer.level = s.composer.level ∧ t.composer.recent = s.composer.recent ∧
        t.composer.overflow = s.composer.overflow ∧
        t.composer.idleTimer = (if rest = [] then some 0 else s.composer.idleTimer) ∧
        composed (cancelText y price lots) s t ∧
        t.crawl.paceLevel = s.crawl.paceLevel ∧ t.crawl.stepCount = s.crawl.stepCount ∧
        t.line = s.line ∧ t.table = s.table ∧ t.tallies = s.tallies ∧
        t.terminals = s.terminals ∧ t.cells = s.cells ∧ t.lamps = s.lamps) ∧
    (∀ (y : Symbol) (st : TradingState), s.composer.printQueue = .status y st :: rest →
      awaiting s ≤ 2 → s.crawl.hold.length + (statusText y st).length ≤ 48 →
      ∃ t, exec .statusTake s = .next t ∧ t.composer.printQueue = rest ∧
        t.composer.level = s.composer.level ∧ t.composer.recent = s.composer.recent ∧
        t.composer.overflow = s.composer.overflow ∧
        t.composer.idleTimer = (if rest = [] then some 0 else s.composer.idleTimer) ∧
        composed (statusText y st) s t ∧
        t.crawl.paceLevel = s.crawl.paceLevel ∧ t.crawl.stepCount = s.crawl.stepCount ∧
        t.line = s.line ∧ t.table = s.table ∧ t.tallies = s.tallies ∧
        t.terminals = s.terminals ∧ t.cells = s.cells ∧ t.lamps = s.lamps) ∧
    (2 < awaiting s → exec .cancelTake s = .next s ∧ exec .statusTake s = .next s)

/-- R75, R76, R84, R85, R110: at 128 the idle timer starts again at level 0; above it a decay is due, and is
made as soon as its notice has room. That IDLE_TIMER_EXPIRY acts apart from the tick (log entry 3) and that
both commands change nothing when they are not due (log entry 2) are the model's choices. -/
def Obligations.IdleTimerAndDecay : Prop :=
  ∀ s : State, s.resetAsserted = false → s.isHead = true →
    (∀ n, s.composer.idleTimer = some n → 128 ≤ n → s.composer.level = 0 →
      exec .idleTimerExpiry s = .next { s with
        composer := { s.composer with idleTimer := some 0 } }) ∧
    (s.composer.idleTimer = none ∨ 0 < s.composer.level ∨
        (∃ n, s.composer.idleTimer = some n ∧ n < 128) →
      exec .idleTimerExpiry s = .next s) ∧
    (∀ n, s.composer.idleTimer = some n → 128 ≤ n → 0 < s.composer.level → awaiting s ≤ 2 →
      s.crawl.hold.length + (lowerNotice (s.composer.level - 1)).length ≤ 48 →
      ∃ t, exec .idleDecay s = .next t ∧ t.composer.level = s.composer.level - 1 ∧
        t.crawl.paceLevel = s.composer.level - 1 ∧
        t.crawl.staged = some (pacePeriod (s.composer.level - 1)) ∧
        t.composer.idleTimer = some 0 ∧ t.composer.printQueue = s.composer.printQueue ∧
        t.composer.recent = s.composer.recent ∧ t.composer.overflow = s.composer.overflow ∧
        composed (lowerNotice (s.composer.level - 1)) s t ∧ paceAsked s t ∧
        t.crawl.stepCount = s.crawl.stepCount ∧ t.table = s.table ∧ t.tallies = s.tallies ∧
        t.terminals = s.terminals ∧ t.cells = s.cells ∧ t.lamps = s.lamps ∧
        t.line.tapeQueue = s.line.tapeQueue) ∧
    (s.composer.idleTimer = none ∨ s.composer.level = 0 ∨
        (∃ n, s.composer.idleTimer = some n ∧ n < 128) ∨ 2 < awaiting s →
      exec .idleDecay s = .next s)

/-! ### The floor line -/

/-- R176, R178 to R181, R187, R207: a frame sent byte by byte, each byte as its ten levels, escapes and one
free hold byte included, is assembled whole by every station that is SEEKING; and the station whose frame
is on the line drives those bytes, one after another, and has then sent its frame whole. -/
def Obligations.SentFrameIsAssembled : Prop :=
  (∀ (c : MsgClass) (f : Frame) (s : State), s.line.assembler = .seeking → f.body.length ≤ 32 →
    ((wireBytes c f).foldl (fun u b => byteReceived (lineLevels b) u) s).line.completed =
      some ⟨c.number, f, checkByte f⟩ ∧
    ((wireBytes c f).foldl (fun u b => byteReceived (lineLevels b) u) s).line.assembler = .seeking ∧
    classOf c.number = some c) ∧
  (∀ (x : Sending) (s : State), s.line.sending = some x → x.sent = 0 → x.held = 0 →
    x.holdOver = false →
    (∀ (k : Nat) (b : Byte), (wireBytes x.cls x.frame)[k]? = some b →
      drivenByte (((wireBytes x.cls x.frame).take k).foldl
        (fun u b => byteReceived (lineLevels b) u) s) = some b) ∧
    (∃ y, ((wireBytes x.cls x.frame).foldl (fun u b => byteReceived (lineLevels b) u) s).line.sending =
        some y ∧ y.queue = x.queue ∧ y.cls = x.cls ∧ y.frame = x.frame ∧ y.allSent = true) ∧
    (s.resetAsserted = false → ∀ b, drivenByte s = some b → drivenLevels s = lineLevels b))

/-- R176 to R183, R185, R187, R188, R195: what one byte and one quiet interval do to an assembler and to a
sender, with no frame awaiting disposal. A byte is a dominant start bit, the data bits least significant
first and a recessive stop bit; a start bit that reads recessive was none. (That a false start leaves the
quiet count, that a hold byte with a dominant stop bit is held at its sender, and that a silence directly
after LEN is not yet inside the hold section are the model's readings: log entries 30, 28 and 32.) -/
def Obligations.BytesAndQuiet : Prop :=
  (∀ (levels : LineLevels) (s : State), levels.getLsbD 0 = true →
    exec (levelsCommand levels) s = .next s) ∧
  (∀ b : Byte, (lineLevels b).getLsbD 0 = false ∧ (lineLevels b).getLsbD 9 = true ∧
    ∀ i, i < 8 → (lineLevels b).getLsbD (i + 1) = b.getLsbD i) ∧
  (∀ (levels : LineLevels) (s : State), s.resetAsserted = false → s.line.completed = none →
    s.line.sending = none → levels.getLsbD 0 = false → levels.getLsbD 9 = false →
    (s.line.assembler = .assembling → exec (levelsCommand levels) s =
      .next (s.brokenCounted.turned .skipping Assembly.empty)) ∧
    (s.line.assembler ≠ .assembling → exec (levelsCommand levels) s = .next s.afterByte)) ∧
  (∀ (b : Byte) (s : State), s.resetAsserted = false → s.line.completed = none →
    s.line.sending = none →
    (s.line.assembler = .waitingForQuiet ∨ (s.line.assembler = .seeking ∧ b ≠ 0xF0) →
      exec (byteCommand b) s = .next s.afterByte) ∧
    (s.line.assembler = .seeking →
      exec (byteCommand 0xF0) s = .next (s.turned .assembling Assembly.empty)) ∧
    (s.line.assembler = .assembling → s.line.assembly.cls = none → s.line.assembly.escape = false →
      (decodeClass b = none → exec (byteCommand b) s =
        .next (s.brokenCounted.turned .skipping Assembly.empty)) ∧
      (∀ cls, decodeClass b = some (cls, false) → exec (byteCommand b) s =
        .next (s.assembled { s.line.assembly with cls := some cls })) ∧
      (∀ cls, decodeClass b = some (cls, true) → exec (byteCommand b) s =
        .next ({ s with tallies := { s.tallies with
          classCorrections := saturate s.tallies.classCorrections } }.assembled
            { s.line.assembly with cls := some cls }))) ∧
    (s.line.assembler = .assembling → s.line.assembly.cls.isSome → s.line.assembly.escape = false →
      (s.line.assembly.bytes.length = 1 → b ≠ 0xF0 →
        (32 < b.toNat → exec (byteCommand b) s =
          .next (s.brokenCounted.turned .skipping Assembly.empty)) ∧
        (b.toNat ≤ 32 → exec (byteCommand b) s = .next (s.assembled { s.line.assembly with
          bytes := s.line.assembly.bytes ++ [b], inHold := true }))) ∧
      (2 ≤ s.line.assembly.bytes.length → s.line.assembly.inHold = true →
        (b ≠ 0xFF → b ≠ 0xF0 → exec (byteCommand b) s =
          .next (s.assembled { s.line.assembly with heldRead := true })) ∧
        exec (byteCommand 0xFF) s = .next (s.assembled { s.line.assembly with inHold := false })) ∧
      exec (byteCommand 0xF0) s = .next (s.assembled { s.line.assembly with escape := true })) ∧
    (s.line.assembler = .assembling → s.line.assembly.escape = true →
      (∀ cls, b ≠ 0x0F → b ≠ 0xF0 → decodeClass b = some (cls, false) → exec (byteCommand b) s =
        .next (s.brokenCounted.turned .assembling { Assembly.empty with cls := some cls })) ∧
      exec (byteCommand 0xF0) s =
        .next (s.brokenCounted.turned .assembling { Assembly.empty with escape := true })) ∧
    (s.line.assembler = .skipping → s.line.assembly.escape = false →
      (b ≠ 0xF0 → exec (byteCommand b) s = .next s.afterByte) ∧
      exec (byteCommand 0xF0) s = .next (s.assembled { s.line.assembly with escape := true })) ∧
    (s.line.assembler = .skipping → s.line.assembly.escape = true →
      exec (byteCommand 0x0F) s = .next (s.assembled { s.line.assembly with escape := false }) ∧
      (∀ cls, b ≠ 0x0F → b ≠ 0xF0 → decodeClass b = some (cls, false) → exec (byteCommand b) s =
        .next (s.turned .assembling { Assembly.empty with cls := some cls })) ∧
      exec (byteCommand 0xF0) s =
        .next (s.turned .assembling { Assembly.empty with escape := true }))) ∧
  (∀ s : State, s.resetAsserted = false → s.line.completed = none → s.line.sending = none →
    (s.line.assembler ≠ .assembling ∨
        (s.line.assembly.inHold = true ∧ s.line.assembly.heldRead = true) →
      exec .lineQuiet s = .next { s with
        line := { s.line with quiet := min 4 (s.line.quiet + 2), holding := false,
                              holdDrive := false, assembler := .seeking,
                              assembly := Assembly.empty } }) ∧
    (s.line.assembler = .assembling →
      s.line.assembly.inHold = false ∨ s.line.assembly.heldRead = false →
      exec .lineQuiet s = .next { s.brokenCounted with
        line := { s.line with quiet := min 4 (s.line.quiet + 2), holding := false,
                              holdDrive := false, assembler := .seeking,
                              assembly := Assembly.empty } })) ∧
  (∀ (b : Byte) (levels : LineLevels) (x : Sending) (s : State), s.resetAsserted = false →
    s.line.completed = none → s.line.sending = some x → levels.getLsbD 0 = false →
    (x.inHold = false → x.nextByte = some b →
      (∀ i, i < 10 → (lineLevels b).getLsbD i = true → levels.getLsbD i = true) →
      ∃ t, exec (levelsCommand levels) s = .next t ∧
        t.line.sending = some { x with sent := x.sent + 1 } ∧
        t.line.tapeQueue = s.line.tapeQueue ∧ t.line.generalQueue = s.line.generalQueue) ∧
    (∀ f fs, x.inHold = false → x.nextByte = some b →
      (∃ i, i < 10 ∧ (lineLevels b).getLsbD i = true ∧ levels.getLsbD i = false) →
      s.line.queue x.queue = f :: fs →
      ∃ t, exec (levelsCommand levels) s = .next t ∧ t.line.sending = none ∧
        t.tallies.arbitrationLosses = saturate s.tallies.arbitrationLosses ∧
        (f.retries < 15 → t.line.queue x.queue = { f with retries := f.retries + 1 } :: fs ∧
          t.tallies.framesAbandoned = s.tallies.framesAbandoned) ∧
        (15 ≤ f.retries → t.line.queue x.queue = fs ∧
          t.tallies.framesAbandoned = saturate s.tallies.framesAbandoned)) ∧
    (x.inHold = true → x.held < 24 → ∃ t, exec (levelsCommand levels) s = .next t ∧
      t.line.sending = some (if levels.extractLsb' 1 8 = 0xFF ∧ levels.getLsbD 9 = true then
        { x with holdOver := true } else { x with held := x.held + 1 })) ∧
    exec .lineQuiet s = .next s)

/-- R110, R165, R177, R178, R184, R190: an attempt begins with the tape queue's head, else with the general
queue's, stamped, with this station's number as its ORIGIN; Answers whose symbol is no longer held are
withdrawn; none begins while the line is not quiet enough, at a listen-only station, or with a frame on
the line. -/
def Obligations.AttemptSendsQueueHead : Prop :=
  ∀ s : State, s.resetAsserted = false →
    (s.listenOnly = true ∨ s.line.sending.isSome ∨ s.line.quiet < 2 ∨
        (s.line.ownFrameWait = true ∧ s.line.quiet < 4) → exec .attemptStart s = .next s) ∧
    (∀ n, s.straps.station = some n → s.line.sending = none →
      (if s.line.ownFrameWait then 4 else 2) ≤ s.line.quiet →
      (∀ f fs, s.line.tapeQueue = f :: fs → exec .attemptStart s = .next { s with
        line := { s.line with
          sending := some ⟨.tape, f.payload.cls,
            ⟨f.dest, BitVec.ofNat 8 n, stampedBody s f.payload⟩, 0, 0, false⟩
          ownFrameWait := false
          quiet := 0 } }) ∧
      (∀ (lost : List TxFrame) (f : TxFrame) (fs : List TxFrame), s.line.tapeQueue = [] →
        s.line.generalQueue = lost ++ f :: fs →
        (∀ g ∈ lost, ∃ u tag y, g.payload = .answer u tag y ∧ findRecord y s.table = none) →
        (∀ u tag y, f.payload = .answer u tag y → (findRecord y s.table).isSome) →
        exec .attemptStart s = .next { s with
          line := { s.line with
            generalQueue := f :: fs
            sending := some ⟨.general, f.payload.cls,
              ⟨f.dest, BitVec.ofNat 8 n, stampedBody s f.payload⟩, 0, 0, false⟩
            ownFrameWait := false
            quiet := 0 } }) ∧
      (s.line.tapeQueue = [] → s.line.generalQueue = [] → exec .attemptStart s = .next s)) ∧
    (∀ r, stampedBody s (.pace r) =
      [BitVec.ofNat 8 r.val, BitVec.ofNat 8 s.crawl.paceLevel, BitVec.ofNat 8 s.composer.level,
       s.crawl.stepCount.extractLsb' 0 8, s.crawl.stepCount.extractLsb' 8 8,
       s.crawl.stepCount.extractLsb' 16 8])

/-- R185, R187, R188: a lost, a held-out and a completed attempt of the frame at the head of its
queue; the 16th failure, a loss that counts or a hold-out, abandons it; there is no loss in the hold section, and an attempt completes when
its last byte has gone out. (That the commands change nothing when they are not due is the model's choice,
log entry 2, and that ARBITRATION_LOSS and FRAME_ABANDONED act by themselves too, log entries 3 and 17.) -/
def Obligations.AttemptOutcomes : Prop :=
  ∀ (x : Sending) (f : TxFrame) (fs : List TxFrame) (s : State), s.resetAsserted = false →
    s.line.sending = some x → s.line.queue x.queue = f :: fs →
    (x.inHold = true ∨ x.allSent = true → exec .arbitrationLoss s = .next s) ∧
    (x.inHold = false → x.allSent = false → f.retries < 15 → exec .arbitrationLoss s =
      .next (({ s with
        line := { s.line with sending := none }
        tallies := { s.tallies with
          arbitrationLosses := saturate s.tallies.arbitrationLosses } } : State).onQueue x.queue
        (fun _ => { f with retries := f.retries + 1 } :: fs))) ∧
    (x.inHold = false → x.allSent = false → 15 ≤ f.retries → exec .arbitrationLoss s =
      .next (({ s with
        line := { s.line with sending := none }
        tallies := { s.tallies with
          arbitrationLosses := saturate s.tallies.arbitrationLosses
          framesAbandoned := saturate s.tallies.framesAbandoned } } : State).onQueue x.queue
        (fun _ => fs))) ∧
    (x.inHold = true → 24 ≤ x.held → f.retries < 15 → exec .holdOut s =
      .next (({ s with line := { s.line with sending := none } } : State).onQueue x.queue
        (fun _ => { f with retries := f.retries + 1 } :: fs))) ∧
    (x.inHold = true → 24 ≤ x.held → 15 ≤ f.retries → exec .holdOut s =
      .next (({ s with
        line := { s.line with sending := none }
        tallies := { s.tallies with
          framesAbandoned := saturate s.tallies.framesAbandoned } } : State).onQueue x.queue
        (fun _ => fs))) ∧
    (x.inHold = false ∨ x.held < 24 → exec .holdOut s = .next s) ∧
    (15 ≤ f.retries → x.inHold = false → x.allSent = false → exec .frameAbandoned s =
      .next (({ s with
        line := { s.line with sending := none }
        tallies := { s.tallies with
          arbitrationLosses := saturate s.tallies.arbitrationLosses
          framesAbandoned := saturate s.tallies.framesAbandoned } } : State).onQueue x.queue
        (fun _ => fs))) ∧
    (15 ≤ f.retries → x.inHold = true → 24 ≤ x.held → exec .frameAbandoned s =
      .next (({ s with
        line := { s.line with sending := none }
        tallies := { s.tallies with
          framesAbandoned := saturate s.tallies.framesAbandoned } } : State).onQueue x.queue
        (fun _ => fs))) ∧
    (f.retries < 15 ∨ x.allSent = true ∨ (x.inHold = true ∧ x.held < 24) →
      exec .frameAbandoned s = .next s) ∧
    (x.allSent = true → exec .attemptComplete s =
      .next (({ s with
        line := { s.line with sending := none, ownFrameWait := true } } : State).onQueue x.queue
        (fun _ => fs))) ∧
    (x.allSent = false → exec .attemptComplete s = .next s)

/-- R186, R192: a receiver with no free slot holds the hold byte of a frame that concerns it, counted
once for each frame, and does not hold when any of R186's conditions fails; the end of a dispatch frees
the oldest slot, and where no dispatch is in progress nothing ends (the model's choice, log entry 2). -/
def Obligations.HoldsAndDispatchEnd : Prop :=
  ∀ s : State, s.resetAsserted = false →
    (s.line.assembler = .assembling → s.line.assembly.inHold = true →
      s.concerns (byteAt s.line.assembly.bytes 0) = true →
      (∃ c k, s.line.assembly.cls = some c ∧ classOf c = some k) →
      s.listenOnly = false → s.line.sending = none → 2 ≤ s.line.slots.length →
      exec .holdByte s = .next { s with
        line := { s.line with holding := true, holdDrive := true }
        tallies := if s.line.holding then s.tallies
          else { s.tallies with holdsAsserted := saturate s.tallies.holdsAsserted } }) ∧
    (s.line.assembler ≠ .assembling ∨ s.line.assembly.inHold = false ∨
        s.line.slots.length < 2 ∨ s.listenOnly = true ∨ s.line.sending.isSome ∨
        s.concerns (byteAt s.line.assembly.bytes 0) = false ∨
        (∀ c, s.line.assembly.cls = some c → classOf c = none) →
      exec .holdByte s = .next { s with line := { s.line with holdDrive := false } }) ∧
    (s.line.dispatching = true → exec .dispatchEnd s = .next s.slotFreed) ∧
    (s.line.dispatching = false → exec .dispatchEnd s = .next s)

/-- R166, R167, R181, R182, R189, R191, R205: the disposal of a frame at its completion, the cases from the
top; a good frame of another station is counted and darkens the fault lamp; a snooped Answer that passes
its checks withdraws at once this station's queued Answer with its ask key (log entry 29). -/
def Obligations.FrameCompleteDisposes : Prop :=
  ∀ (x : Completed) (s : State), s.resetAsserted = false → s.line.completed = some x →
    (x.check ≠ checkByte x.frame → exec .frameComplete s = .next { s with
      line := { s.line with completed := none }
      tallies := { s.tallies with framesDiscarded := saturate s.tallies.framesDiscarded } }) ∧
    (x.check = checkByte x.frame → s.isOwnNumber x.frame.origin = true →
      exec .frameComplete s = .next { s with line := { s.line with completed := none } }) ∧
    (x.check = checkByte x.frame → s.isOwnNumber x.frame.origin = false →
      (classOf x.cls = none → exec .frameComplete s = .next { s with
        line := { s.line with completed := none }
        tallies := { s.tallies with
          goodFrames := saturate s.tallies.goodFrames
          framesDiscarded := saturate s.tallies.framesDiscarded }
        lineSilence := 0, faultLamp := false }) ∧
      (∀ c, classOf x.cls = some c → s.concerns x.frame.dest = true →
        s.line.slots.length < 2 → exec .frameComplete s = .next { s with
          line := { s.line with completed := none, slots := s.line.slots ++ [⟨c, x.frame⟩] }
          tallies := { s.tallies with goodFrames := saturate s.tallies.goodFrames }
          lineSilence := 0, faultLamp := false }) ∧
      (classOf x.cls = some .answer → s.concerns x.frame.dest = false →
        s.isOtherStation x.frame.dest = true → holdsAnswer s = true → s.line.slots.length < 2 →
        ∀ queue : List TxFrame,
          (readAnswer x.frame = none → queue = s.line.generalQueue) →
          (∀ m, readAnswer x.frame = some m →
            queue = (if s.sendingGeneral then s.line.generalQueue.take 1 else []) ++
              (waitingFrames s.sendingGeneral s.line.generalQueue).filter
                (fun g => !g.isAnswerTo x.frame.dest m.terminal m.tag)) →
          exec .frameComplete s = .next { s with
            line := { s.line with completed := none, generalQueue := queue,
                                  slots := s.line.slots ++ [⟨.answer, x.frame⟩] }
            tallies := { s.tallies with goodFrames := saturate s.tallies.goodFrames }
            lineSilence := 0, faultLamp := false }) ∧
      (∀ c, classOf x.cls = some c → s.concerns x.frame.dest = true → 2 ≤ s.line.slots.length →
        exec .frameComplete s = .next { s with
          line := { s.line with completed := none }
          tallies := { s.tallies with
            goodFrames := saturate s.tallies.goodFrames
            framesDiscarded := saturate s.tallies.framesDiscarded }
          lineSilence := 0, faultLamp := false }) ∧
      (∀ c, classOf x.cls = some c → s.concerns x.frame.dest = false →
        (c ≠ .answer ∨ s.isOtherStation x.frame.dest = false ∨ holdsAnswer s = false ∨
          2 ≤ s.line.slots.length) →
        exec .frameComplete s = .next { s with
          line := { s.line with completed := none }
          tallies := { s.tallies with goodFrames := saturate s.tallies.goodFrames }
          lineSilence := 0, faultLamp := false }))

end Statements
end

