-- ==== Sys2Proof/Laws/State.lean ====
section
/-!
SUPPORT. One lemma a field for each update of State, and one for each view of State that the update
does not touch, all true by rfl.
-/
namespace Sys2Proof.Machine

variable (s : State)

/-! ### The setters -/

@[simp] theorem State.withTable_resetAsserted (t : List QuoteRecord) :
    (s.withTable t).resetAsserted = s.resetAsserted :=
    rfl
@[simp] theorem State.withTable_straps (t : List QuoteRecord) : (s.withTable t).straps = s.straps :=
    rfl
@[simp] theorem State.withTable_tickCount (t : List QuoteRecord) :
    (s.withTable t).tickCount = s.tickCount :=
    rfl
@[simp] theorem State.withTable_table (t : List QuoteRecord) : (s.withTable t).table = t := rfl
@[simp] theorem State.withTable_cells (t : List QuoteRecord) : (s.withTable t).cells = s.cells :=
    rfl
@[simp] theorem State.withTable_composer (t : List QuoteRecord) :
    (s.withTable t).composer = s.composer :=
    rfl
@[simp] theorem State.withTable_crawl (t : List QuoteRecord) : (s.withTable t).crawl = s.crawl :=
    rfl
@[simp] theorem State.withTable_lamps (t : List QuoteRecord) : (s.withTable t).lamps = s.lamps :=
    rfl
@[simp] theorem State.withTable_terminals (t : List QuoteRecord) :
    (s.withTable t).terminals = s.terminals :=
    rfl
@[simp] theorem State.withTable_askTag (t : List QuoteRecord) : (s.withTable t).askTag = s.askTag :=
    rfl
@[simp] theorem State.withTable_line (t : List QuoteRecord) : (s.withTable t).line = s.line := rfl
@[simp] theorem State.withTable_tallies (t : List QuoteRecord) :
    (s.withTable t).tallies = s.tallies :=
    rfl
@[simp] theorem State.withTable_lineSilence (t : List QuoteRecord) :
    (s.withTable t).lineSilence = s.lineSilence :=
    rfl
@[simp] theorem State.withTable_faultLamp (t : List QuoteRecord) :
    (s.withTable t).faultLamp = s.faultLamp :=
    rfl
@[simp] theorem State.withTable_pending (t : List QuoteRecord) :
    (s.withTable t).pending = s.pending :=
    rfl

@[simp] theorem State.withCells_resetAsserted (c : List CellRecord) :
    (s.withCells c).resetAsserted = s.resetAsserted :=
    rfl
@[simp] theorem State.withCells_straps (c : List CellRecord) : (s.withCells c).straps = s.straps :=
    rfl
@[simp] theorem State.withCells_tickCount (c : List CellRecord) :
    (s.withCells c).tickCount = s.tickCount :=
    rfl
@[simp] theorem State.withCells_table (c : List CellRecord) : (s.withCells c).table = s.table := rfl
@[simp] theorem State.withCells_cells (c : List CellRecord) : (s.withCells c).cells = c := rfl
@[simp] theorem State.withCells_composer (c : List CellRecord) :
    (s.withCells c).composer = s.composer :=
    rfl
@[simp] theorem State.withCells_crawl (c : List CellRecord) : (s.withCells c).crawl = s.crawl := rfl
@[simp] theorem State.withCells_lamps (c : List CellRecord) : (s.withCells c).lamps = s.lamps := rfl
@[simp] theorem State.withCells_terminals (c : List CellRecord) :
    (s.withCells c).terminals = s.terminals :=
    rfl
@[simp] theorem State.withCells_askTag (c : List CellRecord) : (s.withCells c).askTag = s.askTag :=
    rfl
@[simp] theorem State.withCells_line (c : List CellRecord) : (s.withCells c).line = s.line := rfl
@[simp] theorem State.withCells_tallies (c : List CellRecord) :
    (s.withCells c).tallies = s.tallies :=
    rfl
@[simp] theorem State.withCells_lineSilence (c : List CellRecord) :
    (s.withCells c).lineSilence = s.lineSilence :=
    rfl
@[simp] theorem State.withCells_faultLamp (c : List CellRecord) :
    (s.withCells c).faultLamp = s.faultLamp :=
    rfl
@[simp] theorem State.withCells_pending (c : List CellRecord) :
    (s.withCells c).pending = s.pending :=
    rfl

@[simp] theorem State.withComposer_resetAsserted (c : Composer) :
    (s.withComposer c).resetAsserted = s.resetAsserted :=
    rfl
@[simp] theorem State.withComposer_straps (c : Composer) : (s.withComposer c).straps = s.straps :=
    rfl
@[simp] theorem State.withComposer_tickCount (c : Composer) :
    (s.withComposer c).tickCount = s.tickCount :=
    rfl
@[simp] theorem State.withComposer_table (c : Composer) : (s.withComposer c).table = s.table := rfl
@[simp] theorem State.withComposer_cells (c : Composer) : (s.withComposer c).cells = s.cells := rfl
@[simp] theorem State.withComposer_composer (c : Composer) : (s.withComposer c).composer = c := rfl
@[simp] theorem State.withComposer_crawl (c : Composer) : (s.withComposer c).crawl = s.crawl := rfl
@[simp] theorem State.withComposer_lamps (c : Composer) : (s.withComposer c).lamps = s.lamps := rfl
@[simp] theorem State.withComposer_terminals (c : Composer) :
    (s.withComposer c).terminals = s.terminals :=
    rfl
@[simp] theorem State.withComposer_askTag (c : Composer) : (s.withComposer c).askTag = s.askTag :=
    rfl
@[simp] theorem State.withComposer_line (c : Composer) : (s.withComposer c).line = s.line := rfl
@[simp] theorem State.withComposer_tallies (c : Composer) :
    (s.withComposer c).tallies = s.tallies :=
    rfl
@[simp] theorem State.withComposer_lineSilence (c : Composer) :
    (s.withComposer c).lineSilence = s.lineSilence :=
    rfl
@[simp] theorem State.withComposer_faultLamp (c : Composer) :
    (s.withComposer c).faultLamp = s.faultLamp :=
    rfl
@[simp] theorem State.withComposer_pending (c : Composer) :
    (s.withComposer c).pending = s.pending :=
    rfl

@[simp] theorem State.withCrawl_resetAsserted (c : Crawl) :
    (s.withCrawl c).resetAsserted = s.resetAsserted :=
    rfl
@[simp] theorem State.withCrawl_straps (c : Crawl) : (s.withCrawl c).straps = s.straps := rfl
@[simp] theorem State.withCrawl_tickCount (c : Crawl) : (s.withCrawl c).tickCount = s.tickCount :=
    rfl
@[simp] theorem State.withCrawl_table (c : Crawl) : (s.withCrawl c).table = s.table := rfl
@[simp] theorem State.withCrawl_cells (c : Crawl) : (s.withCrawl c).cells = s.cells := rfl
@[simp] theorem State.withCrawl_composer (c : Crawl) : (s.withCrawl c).composer = s.composer := rfl
@[simp] theorem State.withCrawl_crawl (c : Crawl) : (s.withCrawl c).crawl = c := rfl
@[simp] theorem State.withCrawl_lamps (c : Crawl) : (s.withCrawl c).lamps = s.lamps := rfl
@[simp] theorem State.withCrawl_terminals (c : Crawl) : (s.withCrawl c).terminals = s.terminals :=
    rfl
@[simp] theorem State.withCrawl_askTag (c : Crawl) : (s.withCrawl c).askTag = s.askTag := rfl
@[simp] theorem State.withCrawl_line (c : Crawl) : (s.withCrawl c).line = s.line := rfl
@[simp] theorem State.withCrawl_tallies (c : Crawl) : (s.withCrawl c).tallies = s.tallies := rfl
@[simp] theorem State.withCrawl_lineSilence (c : Crawl) :
    (s.withCrawl c).lineSilence = s.lineSilence :=
    rfl
@[simp] theorem State.withCrawl_faultLamp (c : Crawl) : (s.withCrawl c).faultLamp = s.faultLamp :=
    rfl
@[simp] theorem State.withCrawl_pending (c : Crawl) : (s.withCrawl c).pending = s.pending := rfl

@[simp] theorem State.withLamps_resetAsserted (l : LampDriver) :
    (s.withLamps l).resetAsserted = s.resetAsserted :=
    rfl
@[simp] theorem State.withLamps_straps (l : LampDriver) : (s.withLamps l).straps = s.straps := rfl
@[simp] theorem State.withLamps_tickCount (l : LampDriver) :
    (s.withLamps l).tickCount = s.tickCount :=
    rfl
@[simp] theorem State.withLamps_table (l : LampDriver) : (s.withLamps l).table = s.table := rfl
@[simp] theorem State.withLamps_cells (l : LampDriver) : (s.withLamps l).cells = s.cells := rfl
@[simp] theorem State.withLamps_composer (l : LampDriver) : (s.withLamps l).composer = s.composer :=
    rfl
@[simp] theorem State.withLamps_crawl (l : LampDriver) : (s.withLamps l).crawl = s.crawl := rfl
@[simp] theorem State.withLamps_lamps (l : LampDriver) : (s.withLamps l).lamps = l := rfl
@[simp] theorem State.withLamps_terminals (l : LampDriver) :
    (s.withLamps l).terminals = s.terminals :=
    rfl
@[simp] theorem State.withLamps_askTag (l : LampDriver) : (s.withLamps l).askTag = s.askTag := rfl
@[simp] theorem State.withLamps_line (l : LampDriver) : (s.withLamps l).line = s.line := rfl
@[simp] theorem State.withLamps_tallies (l : LampDriver) : (s.withLamps l).tallies = s.tallies :=
    rfl
@[simp] theorem State.withLamps_lineSilence (l : LampDriver) :
    (s.withLamps l).lineSilence = s.lineSilence :=
    rfl
@[simp] theorem State.withLamps_faultLamp (l : LampDriver) :
    (s.withLamps l).faultLamp = s.faultLamp :=
    rfl
@[simp] theorem State.withLamps_pending (l : LampDriver) : (s.withLamps l).pending = s.pending :=
    rfl

@[simp] theorem State.withTerminals_resetAsserted (q : Quad Terminal) :
    (s.withTerminals q).resetAsserted = s.resetAsserted :=
    rfl
@[simp] theorem State.withTerminals_straps (q : Quad Terminal) :
    (s.withTerminals q).straps = s.straps :=
    rfl
@[simp] theorem State.withTerminals_tickCount (q : Quad Terminal) :
    (s.withTerminals q).tickCount = s.tickCount :=
    rfl
@[simp] theorem State.withTerminals_table (q : Quad Terminal) :
    (s.withTerminals q).table = s.table :=
    rfl
@[simp] theorem State.withTerminals_cells (q : Quad Terminal) :
    (s.withTerminals q).cells = s.cells :=
    rfl
@[simp] theorem State.withTerminals_composer (q : Quad Terminal) :
    (s.withTerminals q).composer = s.composer :=
    rfl
@[simp] theorem State.withTerminals_crawl (q : Quad Terminal) :
    (s.withTerminals q).crawl = s.crawl :=
    rfl
@[simp] theorem State.withTerminals_lamps (q : Quad Terminal) :
    (s.withTerminals q).lamps = s.lamps :=
    rfl
@[simp] theorem State.withTerminals_terminals (q : Quad Terminal) :
    (s.withTerminals q).terminals = q :=
    rfl
@[simp] theorem State.withTerminals_askTag (q : Quad Terminal) :
    (s.withTerminals q).askTag = s.askTag :=
    rfl
@[simp] theorem State.withTerminals_line (q : Quad Terminal) : (s.withTerminals q).line = s.line :=
    rfl
@[simp] theorem State.withTerminals_tallies (q : Quad Terminal) :
    (s.withTerminals q).tallies = s.tallies :=
    rfl
@[simp] theorem State.withTerminals_lineSilence (q : Quad Terminal) :
    (s.withTerminals q).lineSilence = s.lineSilence :=
    rfl
@[simp] theorem State.withTerminals_faultLamp (q : Quad Terminal) :
    (s.withTerminals q).faultLamp = s.faultLamp :=
    rfl
@[simp] theorem State.withTerminals_pending (q : Quad Terminal) :
    (s.withTerminals q).pending = s.pending :=
    rfl

@[simp] theorem State.withAskTag_resetAsserted (n : Byte) :
    (s.withAskTag n).resetAsserted = s.resetAsserted :=
    rfl
@[simp] theorem State.withAskTag_straps (n : Byte) : (s.withAskTag n).straps = s.straps := rfl
@[simp] theorem State.withAskTag_tickCount (n : Byte) : (s.withAskTag n).tickCount = s.tickCount :=
    rfl
@[simp] theorem State.withAskTag_table (n : Byte) : (s.withAskTag n).table = s.table := rfl
@[simp] theorem State.withAskTag_cells (n : Byte) : (s.withAskTag n).cells = s.cells := rfl
@[simp] theorem State.withAskTag_composer (n : Byte) : (s.withAskTag n).composer = s.composer := rfl
@[simp] theorem State.withAskTag_crawl (n : Byte) : (s.withAskTag n).crawl = s.crawl := rfl
@[simp] theorem State.withAskTag_lamps (n : Byte) : (s.withAskTag n).lamps = s.lamps := rfl
@[simp] theorem State.withAskTag_terminals (n : Byte) : (s.withAskTag n).terminals = s.terminals :=
    rfl
@[simp] theorem State.withAskTag_askTag (n : Byte) : (s.withAskTag n).askTag = n := rfl
@[simp] theorem State.withAskTag_line (n : Byte) : (s.withAskTag n).line = s.line := rfl
@[simp] theorem State.withAskTag_tallies (n : Byte) : (s.withAskTag n).tallies = s.tallies := rfl
@[simp] theorem State.withAskTag_lineSilence (n : Byte) :
    (s.withAskTag n).lineSilence = s.lineSilence :=
    rfl
@[simp] theorem State.withAskTag_faultLamp (n : Byte) : (s.withAskTag n).faultLamp = s.faultLamp :=
    rfl
@[simp] theorem State.withAskTag_pending (n : Byte) : (s.withAskTag n).pending = s.pending := rfl

@[simp] theorem State.withLine_resetAsserted (l : Line) :
    (s.withLine l).resetAsserted = s.resetAsserted :=
    rfl
@[simp] theorem State.withLine_straps (l : Line) : (s.withLine l).straps = s.straps := rfl
@[simp] theorem State.withLine_tickCount (l : Line) : (s.withLine l).tickCount = s.tickCount := rfl
@[simp] theorem State.withLine_table (l : Line) : (s.withLine l).table = s.table := rfl
@[simp] theorem State.withLine_cells (l : Line) : (s.withLine l).cells = s.cells := rfl
@[simp] theorem State.withLine_composer (l : Line) : (s.withLine l).composer = s.composer := rfl
@[simp] theorem State.withLine_crawl (l : Line) : (s.withLine l).crawl = s.crawl := rfl
@[simp] theorem State.withLine_lamps (l : Line) : (s.withLine l).lamps = s.lamps := rfl
@[simp] theorem State.withLine_terminals (l : Line) : (s.withLine l).terminals = s.terminals := rfl
@[simp] theorem State.withLine_askTag (l : Line) : (s.withLine l).askTag = s.askTag := rfl
@[simp] theorem State.withLine_line (l : Line) : (s.withLine l).line = l := rfl
@[simp] theorem State.withLine_tallies (l : Line) : (s.withLine l).tallies = s.tallies := rfl
@[simp] theorem State.withLine_lineSilence (l : Line) :
    (s.withLine l).lineSilence = s.lineSilence :=
    rfl
@[simp] theorem State.withLine_faultLamp (l : Line) : (s.withLine l).faultLamp = s.faultLamp := rfl
@[simp] theorem State.withLine_pending (l : Line) : (s.withLine l).pending = s.pending := rfl

@[simp] theorem State.withTallies_resetAsserted (t : Tallies) :
    (s.withTallies t).resetAsserted = s.resetAsserted :=
    rfl
@[simp] theorem State.withTallies_straps (t : Tallies) : (s.withTallies t).straps = s.straps := rfl
@[simp] theorem State.withTallies_tickCount (t : Tallies) :
    (s.withTallies t).tickCount = s.tickCount :=
    rfl
@[simp] theorem State.withTallies_table (t : Tallies) : (s.withTallies t).table = s.table := rfl
@[simp] theorem State.withTallies_cells (t : Tallies) : (s.withTallies t).cells = s.cells := rfl
@[simp] theorem State.withTallies_composer (t : Tallies) :
    (s.withTallies t).composer = s.composer :=
    rfl
@[simp] theorem State.withTallies_crawl (t : Tallies) : (s.withTallies t).crawl = s.crawl := rfl
@[simp] theorem State.withTallies_lamps (t : Tallies) : (s.withTallies t).lamps = s.lamps := rfl
@[simp] theorem State.withTallies_terminals (t : Tallies) :
    (s.withTallies t).terminals = s.terminals :=
    rfl
@[simp] theorem State.withTallies_askTag (t : Tallies) : (s.withTallies t).askTag = s.askTag := rfl
@[simp] theorem State.withTallies_line (t : Tallies) : (s.withTallies t).line = s.line := rfl
@[simp] theorem State.withTallies_tallies (t : Tallies) : (s.withTallies t).tallies = t := rfl
@[simp] theorem State.withTallies_lineSilence (t : Tallies) :
    (s.withTallies t).lineSilence = s.lineSilence :=
    rfl
@[simp] theorem State.withTallies_faultLamp (t : Tallies) :
    (s.withTallies t).faultLamp = s.faultLamp :=
    rfl
@[simp] theorem State.withTallies_pending (t : Tallies) : (s.withTallies t).pending = s.pending :=
    rfl

@[simp] theorem State.withTickCount_resetAsserted (n : TickCount) :
    (s.withTickCount n).resetAsserted = s.resetAsserted :=
    rfl
@[simp] theorem State.withTickCount_straps (n : TickCount) :
    (s.withTickCount n).straps = s.straps :=
    rfl
@[simp] theorem State.withTickCount_tickCount (n : TickCount) : (s.withTickCount n).tickCount = n :=
    rfl
@[simp] theorem State.withTickCount_table (n : TickCount) : (s.withTickCount n).table = s.table :=
    rfl
@[simp] theorem State.withTickCount_cells (n : TickCount) : (s.withTickCount n).cells = s.cells :=
    rfl
@[simp] theorem State.withTickCount_composer (n : TickCount) :
    (s.withTickCount n).composer = s.composer :=
    rfl
@[simp] theorem State.withTickCount_crawl (n : TickCount) : (s.withTickCount n).crawl = s.crawl :=
    rfl
@[simp] theorem State.withTickCount_lamps (n : TickCount) : (s.withTickCount n).lamps = s.lamps :=
    rfl
@[simp] theorem State.withTickCount_terminals (n : TickCount) :
    (s.withTickCount n).terminals = s.terminals :=
    rfl
@[simp] theorem State.withTickCount_askTag (n : TickCount) :
    (s.withTickCount n).askTag = s.askTag :=
    rfl
@[simp] theorem State.withTickCount_line (n : TickCount) : (s.withTickCount n).line = s.line := rfl
@[simp] theorem State.withTickCount_tallies (n : TickCount) :
    (s.withTickCount n).tallies = s.tallies :=
    rfl
@[simp] theorem State.withTickCount_lineSilence (n : TickCount) :
    (s.withTickCount n).lineSilence = s.lineSilence :=
    rfl
@[simp] theorem State.withTickCount_faultLamp (n : TickCount) :
    (s.withTickCount n).faultLamp = s.faultLamp :=
    rfl
@[simp] theorem State.withTickCount_pending (n : TickCount) :
    (s.withTickCount n).pending = s.pending :=
    rfl

@[simp] theorem State.withSilence_resetAsserted (n : Nat) (b : Bool) :
    (s.withSilence n b).resetAsserted = s.resetAsserted :=
    rfl
@[simp] theorem State.withSilence_straps (n : Nat) (b : Bool) :
    (s.withSilence n b).straps = s.straps :=
    rfl
@[simp] theorem State.withSilence_tickCount (n : Nat) (b : Bool) :
    (s.withSilence n b).tickCount = s.tickCount :=
    rfl
@[simp] theorem State.withSilence_table (n : Nat) (b : Bool) :
    (s.withSilence n b).table = s.table :=
    rfl
@[simp] theorem State.withSilence_cells (n : Nat) (b : Bool) :
    (s.withSilence n b).cells = s.cells :=
    rfl
@[simp] theorem State.withSilence_composer (n : Nat) (b : Bool) :
    (s.withSilence n b).composer = s.composer :=
    rfl
@[simp] theorem State.withSilence_crawl (n : Nat) (b : Bool) :
    (s.withSilence n b).crawl = s.crawl :=
    rfl
@[simp] theorem State.withSilence_lamps (n : Nat) (b : Bool) :
    (s.withSilence n b).lamps = s.lamps :=
    rfl
@[simp] theorem State.withSilence_terminals (n : Nat) (b : Bool) :
    (s.withSilence n b).terminals = s.terminals :=
    rfl
@[simp] theorem State.withSilence_askTag (n : Nat) (b : Bool) :
    (s.withSilence n b).askTag = s.askTag :=
    rfl
@[simp] theorem State.withSilence_line (n : Nat) (b : Bool) : (s.withSilence n b).line = s.line :=
    rfl
@[simp] theorem State.withSilence_tallies (n : Nat) (b : Bool) :
    (s.withSilence n b).tallies = s.tallies :=
    rfl
@[simp] theorem State.withSilence_lineSilence (n : Nat) (b : Bool) :
    (s.withSilence n b).lineSilence = n :=
    rfl
@[simp] theorem State.withSilence_faultLamp (n : Nat) (b : Bool) :
    (s.withSilence n b).faultLamp = b :=
    rfl
@[simp] theorem State.withSilence_pending (n : Nat) (b : Bool) :
    (s.withSilence n b).pending = s.pending :=
    rfl

@[simp] theorem State.withReset_resetAsserted : (s.withReset).resetAsserted = true := rfl
@[simp] theorem State.withReset_straps : (s.withReset).straps = s.straps := rfl
@[simp] theorem State.withReset_tickCount : (s.withReset).tickCount = s.tickCount := rfl
@[simp] theorem State.withReset_table : (s.withReset).table = s.table := rfl
@[simp] theorem State.withReset_cells : (s.withReset).cells = s.cells := rfl
@[simp] theorem State.withReset_composer : (s.withReset).composer = s.composer := rfl
@[simp] theorem State.withReset_crawl : (s.withReset).crawl = s.crawl := rfl
@[simp] theorem State.withReset_lamps : (s.withReset).lamps = s.lamps := rfl
@[simp] theorem State.withReset_terminals : (s.withReset).terminals = s.terminals := rfl
@[simp] theorem State.withReset_askTag : (s.withReset).askTag = s.askTag := rfl
@[simp] theorem State.withReset_line : (s.withReset).line = s.line := rfl
@[simp] theorem State.withReset_tallies : (s.withReset).tallies = s.tallies := rfl
@[simp] theorem State.withReset_lineSilence : (s.withReset).lineSilence = s.lineSilence := rfl
@[simp] theorem State.withReset_faultLamp : (s.withReset).faultLamp = s.faultLamp := rfl
@[simp] theorem State.withReset_pending : (s.withReset).pending = s.pending := rfl

@[simp] theorem State.withPending_resetAsserted (q : List Instr) :
    (s.withPending q).resetAsserted = s.resetAsserted :=
    rfl
@[simp] theorem State.withPending_straps (q : List Instr) : (s.withPending q).straps = s.straps :=
    rfl
@[simp] theorem State.withPending_tickCount (q : List Instr) :
    (s.withPending q).tickCount = s.tickCount :=
    rfl
@[simp] theorem State.withPending_table (q : List Instr) : (s.withPending q).table = s.table := rfl
@[simp] theorem State.withPending_cells (q : List Instr) : (s.withPending q).cells = s.cells := rfl
@[simp] theorem State.withPending_composer (q : List Instr) :
    (s.withPending q).composer = s.composer :=
    rfl
@[simp] theorem State.withPending_crawl (q : List Instr) : (s.withPending q).crawl = s.crawl := rfl
@[simp] theorem State.withPending_lamps (q : List Instr) : (s.withPending q).lamps = s.lamps := rfl
@[simp] theorem State.withPending_terminals (q : List Instr) :
    (s.withPending q).terminals = s.terminals :=
    rfl
@[simp] theorem State.withPending_askTag (q : List Instr) : (s.withPending q).askTag = s.askTag :=
    rfl
@[simp] theorem State.withPending_line (q : List Instr) : (s.withPending q).line = s.line := rfl
@[simp] theorem State.withPending_tallies (q : List Instr) :
    (s.withPending q).tallies = s.tallies :=
    rfl
@[simp] theorem State.withPending_lineSilence (q : List Instr) :
    (s.withPending q).lineSilence = s.lineSilence :=
    rfl
@[simp] theorem State.withPending_faultLamp (q : List Instr) :
    (s.withPending q).faultLamp = s.faultLamp :=
    rfl
@[simp] theorem State.withPending_pending (q : List Instr) : (s.withPending q).pending = q := rfl

/-! ### The updates inside a block -/

@[simp] theorem State.onRecord_resetAsserted (y : Symbol) (f : QuoteRecord → QuoteRecord) :
    (s.onRecord y f).resetAsserted = s.resetAsserted :=
    rfl
@[simp] theorem State.onRecord_straps (y : Symbol) (f : QuoteRecord → QuoteRecord) :
    (s.onRecord y f).straps = s.straps :=
    rfl
@[simp] theorem State.onRecord_tickCount (y : Symbol) (f : QuoteRecord → QuoteRecord) :
    (s.onRecord y f).tickCount = s.tickCount :=
    rfl
@[simp] theorem State.onRecord_table (y : Symbol) (f : QuoteRecord → QuoteRecord) :
    (s.onRecord y f).table = updateRecord y f s.table :=
    rfl
@[simp] theorem State.onRecord_cells (y : Symbol) (f : QuoteRecord → QuoteRecord) :
    (s.onRecord y f).cells = s.cells :=
    rfl
@[simp] theorem State.onRecord_composer (y : Symbol) (f : QuoteRecord → QuoteRecord) :
    (s.onRecord y f).composer = s.composer :=
    rfl
@[simp] theorem State.onRecord_crawl (y : Symbol) (f : QuoteRecord → QuoteRecord) :
    (s.onRecord y f).crawl = s.crawl :=
    rfl
@[simp] theorem State.onRecord_lamps (y : Symbol) (f : QuoteRecord → QuoteRecord) :
    (s.onRecord y f).lamps = s.lamps :=
    rfl
@[simp] theorem State.onRecord_terminals (y : Symbol) (f : QuoteRecord → QuoteRecord) :
    (s.onRecord y f).terminals = s.terminals :=
    rfl
@[simp] theorem State.onRecord_askTag (y : Symbol) (f : QuoteRecord → QuoteRecord) :
    (s.onRecord y f).askTag = s.askTag :=
    rfl
@[simp] theorem State.onRecord_line (y : Symbol) (f : QuoteRecord → QuoteRecord) :
    (s.onRecord y f).line = s.line :=
    rfl
@[simp] theorem State.onRecord_tallies (y : Symbol) (f : QuoteRecord → QuoteRecord) :
    (s.onRecord y f).tallies = s.tallies :=
    rfl
@[simp] theorem State.onRecord_lineSilence (y : Symbol) (f : QuoteRecord → QuoteRecord) :
    (s.onRecord y f).lineSilence = s.lineSilence :=
    rfl
@[simp] theorem State.onRecord_faultLamp (y : Symbol) (f : QuoteRecord → QuoteRecord) :
    (s.onRecord y f).faultLamp = s.faultLamp :=
    rfl
@[simp] theorem State.onRecord_pending (y : Symbol) (f : QuoteRecord → QuoteRecord) :
    (s.onRecord y f).pending = s.pending :=
    rfl

@[simp] theorem State.onCells_resetAsserted (ns : List (Fin 16)) (f : CellRecord → CellRecord) :
    (s.onCells ns f).resetAsserted = s.resetAsserted :=
    rfl
@[simp] theorem State.onCells_straps (ns : List (Fin 16)) (f : CellRecord → CellRecord) :
    (s.onCells ns f).straps = s.straps :=
    rfl
@[simp] theorem State.onCells_tickCount (ns : List (Fin 16)) (f : CellRecord → CellRecord) :
    (s.onCells ns f).tickCount = s.tickCount :=
    rfl
@[simp] theorem State.onCells_table (ns : List (Fin 16)) (f : CellRecord → CellRecord) :
    (s.onCells ns f).table = s.table :=
    rfl
@[simp] theorem State.onCells_cells (ns : List (Fin 16)) (f : CellRecord → CellRecord) :
    (s.onCells ns f).cells = s.cells.map (fun c => if ns.contains c.number then f c else c) :=
    rfl
@[simp] theorem State.onCells_composer (ns : List (Fin 16)) (f : CellRecord → CellRecord) :
    (s.onCells ns f).composer = s.composer :=
    rfl
@[simp] theorem State.onCells_crawl (ns : List (Fin 16)) (f : CellRecord → CellRecord) :
    (s.onCells ns f).crawl = s.crawl :=
    rfl
@[simp] theorem State.onCells_lamps (ns : List (Fin 16)) (f : CellRecord → CellRecord) :
    (s.onCells ns f).lamps = s.lamps :=
    rfl
@[simp] theorem State.onCells_terminals (ns : List (Fin 16)) (f : CellRecord → CellRecord) :
    (s.onCells ns f).terminals = s.terminals :=
    rfl
@[simp] theorem State.onCells_askTag (ns : List (Fin 16)) (f : CellRecord → CellRecord) :
    (s.onCells ns f).askTag = s.askTag :=
    rfl
@[simp] theorem State.onCells_line (ns : List (Fin 16)) (f : CellRecord → CellRecord) :
    (s.onCells ns f).line = s.line :=
    rfl
@[simp] theorem State.onCells_tallies (ns : List (Fin 16)) (f : CellRecord → CellRecord) :
    (s.onCells ns f).tallies = s.tallies :=
    rfl
@[simp] theorem State.onCells_lineSilence (ns : List (Fin 16)) (f : CellRecord → CellRecord) :
    (s.onCells ns f).lineSilence = s.lineSilence :=
    rfl
@[simp] theorem State.onCells_faultLamp (ns : List (Fin 16)) (f : CellRecord → CellRecord) :
    (s.onCells ns f).faultLamp = s.faultLamp :=
    rfl
@[simp] theorem State.onCells_pending (ns : List (Fin 16)) (f : CellRecord → CellRecord) :
    (s.onCells ns f).pending = s.pending :=
    rfl

@[simp] theorem State.setTerm_resetAsserted (t : Fin 4) (x : Terminal) :
    (s.setTerm t x).resetAsserted = s.resetAsserted :=
    rfl
@[simp] theorem State.setTerm_straps (t : Fin 4) (x : Terminal) :
    (s.setTerm t x).straps = s.straps :=
    rfl
@[simp] theorem State.setTerm_tickCount (t : Fin 4) (x : Terminal) :
    (s.setTerm t x).tickCount = s.tickCount :=
    rfl
@[simp] theorem State.setTerm_table (t : Fin 4) (x : Terminal) : (s.setTerm t x).table = s.table :=
    rfl
@[simp] theorem State.setTerm_cells (t : Fin 4) (x : Terminal) : (s.setTerm t x).cells = s.cells :=
    rfl
@[simp] theorem State.setTerm_composer (t : Fin 4) (x : Terminal) :
    (s.setTerm t x).composer = s.composer :=
    rfl
@[simp] theorem State.setTerm_crawl (t : Fin 4) (x : Terminal) : (s.setTerm t x).crawl = s.crawl :=
    rfl
@[simp] theorem State.setTerm_lamps (t : Fin 4) (x : Terminal) : (s.setTerm t x).lamps = s.lamps :=
    rfl
@[simp] theorem State.setTerm_terminals (t : Fin 4) (x : Terminal) :
    (s.setTerm t x).terminals = s.terminals.set t x :=
    rfl
@[simp] theorem State.setTerm_askTag (t : Fin 4) (x : Terminal) :
    (s.setTerm t x).askTag = s.askTag :=
    rfl
@[simp] theorem State.setTerm_line (t : Fin 4) (x : Terminal) : (s.setTerm t x).line = s.line := rfl
@[simp] theorem State.setTerm_tallies (t : Fin 4) (x : Terminal) :
    (s.setTerm t x).tallies = s.tallies :=
    rfl
@[simp] theorem State.setTerm_lineSilence (t : Fin 4) (x : Terminal) :
    (s.setTerm t x).lineSilence = s.lineSilence :=
    rfl
@[simp] theorem State.setTerm_faultLamp (t : Fin 4) (x : Terminal) :
    (s.setTerm t x).faultLamp = s.faultLamp :=
    rfl
@[simp] theorem State.setTerm_pending (t : Fin 4) (x : Terminal) :
    (s.setTerm t x).pending = s.pending :=
    rfl

@[simp] theorem State.onTerm_resetAsserted (t : Fin 4) (f : Terminal → Terminal) :
    (s.onTerm t f).resetAsserted = s.resetAsserted :=
    rfl
@[simp] theorem State.onTerm_straps (t : Fin 4) (f : Terminal → Terminal) :
    (s.onTerm t f).straps = s.straps :=
    rfl
@[simp] theorem State.onTerm_tickCount (t : Fin 4) (f : Terminal → Terminal) :
    (s.onTerm t f).tickCount = s.tickCount :=
    rfl
@[simp] theorem State.onTerm_table (t : Fin 4) (f : Terminal → Terminal) :
    (s.onTerm t f).table = s.table :=
    rfl
@[simp] theorem State.onTerm_cells (t : Fin 4) (f : Terminal → Terminal) :
    (s.onTerm t f).cells = s.cells :=
    rfl
@[simp] theorem State.onTerm_composer (t : Fin 4) (f : Terminal → Terminal) :
    (s.onTerm t f).composer = s.composer :=
    rfl
@[simp] theorem State.onTerm_crawl (t : Fin 4) (f : Terminal → Terminal) :
    (s.onTerm t f).crawl = s.crawl :=
    rfl
@[simp] theorem State.onTerm_lamps (t : Fin 4) (f : Terminal → Terminal) :
    (s.onTerm t f).lamps = s.lamps :=
    rfl
@[simp] theorem State.onTerm_terminals (t : Fin 4) (f : Terminal → Terminal) :
    (s.onTerm t f).terminals = s.terminals.set t (f (s.term t)) :=
    rfl
@[simp] theorem State.onTerm_askTag (t : Fin 4) (f : Terminal → Terminal) :
    (s.onTerm t f).askTag = s.askTag :=
    rfl
@[simp] theorem State.onTerm_line (t : Fin 4) (f : Terminal → Terminal) :
    (s.onTerm t f).line = s.line :=
    rfl
@[simp] theorem State.onTerm_tallies (t : Fin 4) (f : Terminal → Terminal) :
    (s.onTerm t f).tallies = s.tallies :=
    rfl
@[simp] theorem State.onTerm_lineSilence (t : Fin 4) (f : Terminal → Terminal) :
    (s.onTerm t f).lineSilence = s.lineSilence :=
    rfl
@[simp] theorem State.onTerm_faultLamp (t : Fin 4) (f : Terminal → Terminal) :
    (s.onTerm t f).faultLamp = s.faultLamp :=
    rfl
@[simp] theorem State.onTerm_pending (t : Fin 4) (f : Terminal → Terminal) :
    (s.onTerm t f).pending = s.pending :=
    rfl

@[simp] theorem State.onCrawl_resetAsserted (f : Crawl → Crawl) :
    (s.onCrawl f).resetAsserted = s.resetAsserted :=
    rfl
@[simp] theorem State.onCrawl_straps (f : Crawl → Crawl) : (s.onCrawl f).straps = s.straps := rfl
@[simp] theorem State.onCrawl_tickCount (f : Crawl → Crawl) :
    (s.onCrawl f).tickCount = s.tickCount :=
    rfl
@[simp] theorem State.onCrawl_table (f : Crawl → Crawl) : (s.onCrawl f).table = s.table := rfl
@[simp] theorem State.onCrawl_cells (f : Crawl → Crawl) : (s.onCrawl f).cells = s.cells := rfl
@[simp] theorem State.onCrawl_composer (f : Crawl → Crawl) : (s.onCrawl f).composer = s.composer :=
    rfl
@[simp] theorem State.onCrawl_crawl (f : Crawl → Crawl) : (s.onCrawl f).crawl = f s.crawl := rfl
@[simp] theorem State.onCrawl_lamps (f : Crawl → Crawl) : (s.onCrawl f).lamps = s.lamps := rfl
@[simp] theorem State.onCrawl_terminals (f : Crawl → Crawl) :
    (s.onCrawl f).terminals = s.terminals :=
    rfl
@[simp] theorem State.onCrawl_askTag (f : Crawl → Crawl) : (s.onCrawl f).askTag = s.askTag := rfl
@[simp] theorem State.onCrawl_line (f : Crawl → Crawl) : (s.onCrawl f).line = s.line := rfl
@[simp] theorem State.onCrawl_tallies (f : Crawl → Crawl) : (s.onCrawl f).tallies = s.tallies := rfl
@[simp] theorem State.onCrawl_lineSilence (f : Crawl → Crawl) :
    (s.onCrawl f).lineSilence = s.lineSilence :=
    rfl
@[simp] theorem State.onCrawl_faultLamp (f : Crawl → Crawl) :
    (s.onCrawl f).faultLamp = s.faultLamp :=
    rfl
@[simp] theorem State.onCrawl_pending (f : Crawl → Crawl) : (s.onCrawl f).pending = s.pending := rfl

@[simp] theorem State.onComposer_resetAsserted (f : Composer → Composer) :
    (s.onComposer f).resetAsserted = s.resetAsserted :=
    rfl
@[simp] theorem State.onComposer_straps (f : Composer → Composer) :
    (s.onComposer f).straps = s.straps :=
    rfl
@[simp] theorem State.onComposer_tickCount (f : Composer → Composer) :
    (s.onComposer f).tickCount = s.tickCount :=
    rfl
@[simp] theorem State.onComposer_table (f : Composer → Composer) :
    (s.onComposer f).table = s.table :=
    rfl
@[simp] theorem State.onComposer_cells (f : Composer → Composer) :
    (s.onComposer f).cells = s.cells :=
    rfl
@[simp] theorem State.onComposer_composer (f : Composer → Composer) :
    (s.onComposer f).composer = f s.composer :=
    rfl
@[simp] theorem State.onComposer_crawl (f : Composer → Composer) :
    (s.onComposer f).crawl = s.crawl :=
    rfl
@[simp] theorem State.onComposer_lamps (f : Composer → Composer) :
    (s.onComposer f).lamps = s.lamps :=
    rfl
@[simp] theorem State.onComposer_terminals (f : Composer → Composer) :
    (s.onComposer f).terminals = s.terminals :=
    rfl
@[simp] theorem State.onComposer_askTag (f : Composer → Composer) :
    (s.onComposer f).askTag = s.askTag :=
    rfl
@[simp] theorem State.onComposer_line (f : Composer → Composer) : (s.onComposer f).line = s.line :=
    rfl
@[simp] theorem State.onComposer_tallies (f : Composer → Composer) :
    (s.onComposer f).tallies = s.tallies :=
    rfl
@[simp] theorem State.onComposer_lineSilence (f : Composer → Composer) :
    (s.onComposer f).lineSilence = s.lineSilence :=
    rfl
@[simp] theorem State.onComposer_faultLamp (f : Composer → Composer) :
    (s.onComposer f).faultLamp = s.faultLamp :=
    rfl
@[simp] theorem State.onComposer_pending (f : Composer → Composer) :
    (s.onComposer f).pending = s.pending :=
    rfl

@[simp] theorem State.onLine_resetAsserted (f : Line → Line) :
    (s.onLine f).resetAsserted = s.resetAsserted :=
    rfl
@[simp] theorem State.onLine_straps (f : Line → Line) : (s.onLine f).straps = s.straps := rfl
@[simp] theorem State.onLine_tickCount (f : Line → Line) : (s.onLine f).tickCount = s.tickCount :=
    rfl
@[simp] theorem State.onLine_table (f : Line → Line) : (s.onLine f).table = s.table := rfl
@[simp] theorem State.onLine_cells (f : Line → Line) : (s.onLine f).cells = s.cells := rfl
@[simp] theorem State.onLine_composer (f : Line → Line) : (s.onLine f).composer = s.composer := rfl
@[simp] theorem State.onLine_crawl (f : Line → Line) : (s.onLine f).crawl = s.crawl := rfl
@[simp] theorem State.onLine_lamps (f : Line → Line) : (s.onLine f).lamps = s.lamps := rfl
@[simp] theorem State.onLine_terminals (f : Line → Line) : (s.onLine f).terminals = s.terminals :=
    rfl
@[simp] theorem State.onLine_askTag (f : Line → Line) : (s.onLine f).askTag = s.askTag := rfl
@[simp] theorem State.onLine_line (f : Line → Line) : (s.onLine f).line = f s.line := rfl
@[simp] theorem State.onLine_tallies (f : Line → Line) : (s.onLine f).tallies = s.tallies := rfl
@[simp] theorem State.onLine_lineSilence (f : Line → Line) :
    (s.onLine f).lineSilence = s.lineSilence :=
    rfl
@[simp] theorem State.onLine_faultLamp (f : Line → Line) : (s.onLine f).faultLamp = s.faultLamp :=
    rfl
@[simp] theorem State.onLine_pending (f : Line → Line) : (s.onLine f).pending = s.pending := rfl

@[simp] theorem State.onAssembly_resetAsserted (f : Assembly → Assembly) :
    (s.onAssembly f).resetAsserted = s.resetAsserted :=
    rfl
@[simp] theorem State.onAssembly_straps (f : Assembly → Assembly) :
    (s.onAssembly f).straps = s.straps :=
    rfl
@[simp] theorem State.onAssembly_tickCount (f : Assembly → Assembly) :
    (s.onAssembly f).tickCount = s.tickCount :=
    rfl
@[simp] theorem State.onAssembly_table (f : Assembly → Assembly) :
    (s.onAssembly f).table = s.table :=
    rfl
@[simp] theorem State.onAssembly_cells (f : Assembly → Assembly) :
    (s.onAssembly f).cells = s.cells :=
    rfl
@[simp] theorem State.onAssembly_composer (f : Assembly → Assembly) :
    (s.onAssembly f).composer = s.composer :=
    rfl
@[simp] theorem State.onAssembly_crawl (f : Assembly → Assembly) :
    (s.onAssembly f).crawl = s.crawl :=
    rfl
@[simp] theorem State.onAssembly_lamps (f : Assembly → Assembly) :
    (s.onAssembly f).lamps = s.lamps :=
    rfl
@[simp] theorem State.onAssembly_terminals (f : Assembly → Assembly) :
    (s.onAssembly f).terminals = s.terminals :=
    rfl
@[simp] theorem State.onAssembly_askTag (f : Assembly → Assembly) :
    (s.onAssembly f).askTag = s.askTag :=
    rfl
@[simp] theorem State.onAssembly_line (f : Assembly → Assembly) :
    (s.onAssembly f).line = { s.line with assembly := f s.line.assembly } :=
    rfl
@[simp] theorem State.onAssembly_tallies (f : Assembly → Assembly) :
    (s.onAssembly f).tallies = s.tallies :=
    rfl
@[simp] theorem State.onAssembly_lineSilence (f : Assembly → Assembly) :
    (s.onAssembly f).lineSilence = s.lineSilence :=
    rfl
@[simp] theorem State.onAssembly_faultLamp (f : Assembly → Assembly) :
    (s.onAssembly f).faultLamp = s.faultLamp :=
    rfl
@[simp] theorem State.onAssembly_pending (f : Assembly → Assembly) :
    (s.onAssembly f).pending = s.pending :=
    rfl

@[simp] theorem State.count_resetAsserted (k : Tally) :
    (s.count k).resetAsserted = s.resetAsserted :=
    rfl
@[simp] theorem State.count_straps (k : Tally) : (s.count k).straps = s.straps := rfl
@[simp] theorem State.count_tickCount (k : Tally) : (s.count k).tickCount = s.tickCount := rfl
@[simp] theorem State.count_table (k : Tally) : (s.count k).table = s.table := rfl
@[simp] theorem State.count_cells (k : Tally) : (s.count k).cells = s.cells := rfl
@[simp] theorem State.count_composer (k : Tally) : (s.count k).composer = s.composer := rfl
@[simp] theorem State.count_crawl (k : Tally) : (s.count k).crawl = s.crawl := rfl
@[simp] theorem State.count_lamps (k : Tally) : (s.count k).lamps = s.lamps := rfl
@[simp] theorem State.count_terminals (k : Tally) : (s.count k).terminals = s.terminals := rfl
@[simp] theorem State.count_askTag (k : Tally) : (s.count k).askTag = s.askTag := rfl
@[simp] theorem State.count_line (k : Tally) : (s.count k).line = s.line := rfl
@[simp] theorem State.count_tallies (k : Tally) : (s.count k).tallies = s.tallies.bump k := rfl
@[simp] theorem State.count_lineSilence (k : Tally) : (s.count k).lineSilence = s.lineSilence := rfl
@[simp] theorem State.count_faultLamp (k : Tally) : (s.count k).faultLamp = s.faultLamp := rfl
@[simp] theorem State.count_pending (k : Tally) : (s.count k).pending = s.pending := rfl

@[simp] theorem State.appendGeneral_resetAsserted (d : Byte) (p : TxPayload) :
    (s.appendGeneral d p).resetAsserted = s.resetAsserted :=
    rfl
@[simp] theorem State.appendGeneral_straps (d : Byte) (p : TxPayload) :
    (s.appendGeneral d p).straps = s.straps :=
    rfl
@[simp] theorem State.appendGeneral_tickCount (d : Byte) (p : TxPayload) :
    (s.appendGeneral d p).tickCount = s.tickCount :=
    rfl
@[simp] theorem State.appendGeneral_table (d : Byte) (p : TxPayload) :
    (s.appendGeneral d p).table = s.table :=
    rfl
@[simp] theorem State.appendGeneral_cells (d : Byte) (p : TxPayload) :
    (s.appendGeneral d p).cells = s.cells :=
    rfl
@[simp] theorem State.appendGeneral_composer (d : Byte) (p : TxPayload) :
    (s.appendGeneral d p).composer = s.composer :=
    rfl
@[simp] theorem State.appendGeneral_crawl (d : Byte) (p : TxPayload) :
    (s.appendGeneral d p).crawl = s.crawl :=
    rfl
@[simp] theorem State.appendGeneral_lamps (d : Byte) (p : TxPayload) :
    (s.appendGeneral d p).lamps = s.lamps :=
    rfl
@[simp] theorem State.appendGeneral_terminals (d : Byte) (p : TxPayload) :
    (s.appendGeneral d p).terminals = s.terminals :=
    rfl
@[simp] theorem State.appendGeneral_askTag (d : Byte) (p : TxPayload) :
    (s.appendGeneral d p).askTag = s.askTag :=
    rfl
@[simp] theorem State.appendGeneral_line (d : Byte) (p : TxPayload) :
    (s.appendGeneral d p).line = { s.line with generalQueue := s.line.generalQueue ++ [⟨d, p, 0⟩] } :=
    rfl
@[simp] theorem State.appendGeneral_tallies (d : Byte) (p : TxPayload) :
    (s.appendGeneral d p).tallies = s.tallies :=
    rfl
@[simp] theorem State.appendGeneral_lineSilence (d : Byte) (p : TxPayload) :
    (s.appendGeneral d p).lineSilence = s.lineSilence :=
    rfl
@[simp] theorem State.appendGeneral_faultLamp (d : Byte) (p : TxPayload) :
    (s.appendGeneral d p).faultLamp = s.faultLamp :=
    rfl
@[simp] theorem State.appendGeneral_pending (d : Byte) (p : TxPayload) :
    (s.appendGeneral d p).pending = s.pending :=
    rfl

@[simp] theorem State.appendTape_resetAsserted (d : Byte) (p : TxPayload) :
    (s.appendTape d p).resetAsserted = s.resetAsserted :=
    rfl
@[simp] theorem State.appendTape_straps (d : Byte) (p : TxPayload) :
    (s.appendTape d p).straps = s.straps :=
    rfl
@[simp] theorem State.appendTape_tickCount (d : Byte) (p : TxPayload) :
    (s.appendTape d p).tickCount = s.tickCount :=
    rfl
@[simp] theorem State.appendTape_table (d : Byte) (p : TxPayload) :
    (s.appendTape d p).table = s.table :=
    rfl
@[simp] theorem State.appendTape_cells (d : Byte) (p : TxPayload) :
    (s.appendTape d p).cells = s.cells :=
    rfl
@[simp] theorem State.appendTape_composer (d : Byte) (p : TxPayload) :
    (s.appendTape d p).composer = s.composer :=
    rfl
@[simp] theorem State.appendTape_crawl (d : Byte) (p : TxPayload) :
    (s.appendTape d p).crawl = s.crawl :=
    rfl
@[simp] theorem State.appendTape_lamps (d : Byte) (p : TxPayload) :
    (s.appendTape d p).lamps = s.lamps :=
    rfl
@[simp] theorem State.appendTape_terminals (d : Byte) (p : TxPayload) :
    (s.appendTape d p).terminals = s.terminals :=
    rfl
@[simp] theorem State.appendTape_askTag (d : Byte) (p : TxPayload) :
    (s.appendTape d p).askTag = s.askTag :=
    rfl
@[simp] theorem State.appendTape_line (d : Byte) (p : TxPayload) :
    (s.appendTape d p).line = { s.line with tapeQueue := s.line.tapeQueue ++ [⟨d, p, 0⟩] } :=
    rfl
@[simp] theorem State.appendTape_tallies (d : Byte) (p : TxPayload) :
    (s.appendTape d p).tallies = s.tallies :=
    rfl
@[simp] theorem State.appendTape_lineSilence (d : Byte) (p : TxPayload) :
    (s.appendTape d p).lineSilence = s.lineSilence :=
    rfl
@[simp] theorem State.appendTape_faultLamp (d : Byte) (p : TxPayload) :
    (s.appendTape d p).faultLamp = s.faultLamp :=
    rfl
@[simp] theorem State.appendTape_pending (d : Byte) (p : TxPayload) :
    (s.appendTape d p).pending = s.pending :=
    rfl

/-! ### Views an update does not touch -/

@[simp] theorem State.withTable_term (t : List QuoteRecord) (u : Fin 4) :
    (s.withTable t).term u = s.term u :=
    rfl
@[simp] theorem State.withTable_active (t : List QuoteRecord) (u : Fin 4) :
    (s.withTable t).active u = s.active u :=
    rfl
@[simp] theorem State.withTable_listenOnly (t : List QuoteRecord) :
    (s.withTable t).listenOnly = s.listenOnly :=
    rfl
@[simp] theorem State.withTable_isHead (t : List QuoteRecord) : (s.withTable t).isHead = s.isHead :=
    rfl
@[simp] theorem State.withTable_isTail (t : List QuoteRecord) : (s.withTable t).isTail = s.isTail :=
    rfl
@[simp] theorem State.withTable_isOwnNumber (t : List QuoteRecord) (d0 : Byte) :
    (s.withTable t).isOwnNumber d0 = s.isOwnNumber d0 :=
    rfl
@[simp] theorem State.withTable_isOwnSegment (t : List QuoteRecord) (d0 : Byte) :
    (s.withTable t).isOwnSegment d0 = s.isOwnSegment d0 :=
    rfl
@[simp] theorem State.withTable_generalFull (t : List QuoteRecord) :
    (s.withTable t).generalFull = s.generalFull :=
    rfl
@[simp] theorem State.withTable_moving (t : List QuoteRecord) : (s.withTable t).moving = s.moving :=
    rfl

@[simp] theorem State.withCells_term (c : List CellRecord) (u : Fin 4) :
    (s.withCells c).term u = s.term u :=
    rfl
@[simp] theorem State.withCells_active (c : List CellRecord) (u : Fin 4) :
    (s.withCells c).active u = s.active u :=
    rfl
@[simp] theorem State.withCells_listenOnly (c : List CellRecord) :
    (s.withCells c).listenOnly = s.listenOnly :=
    rfl
@[simp] theorem State.withCells_isHead (c : List CellRecord) : (s.withCells c).isHead = s.isHead :=
    rfl
@[simp] theorem State.withCells_isTail (c : List CellRecord) : (s.withCells c).isTail = s.isTail :=
    rfl
@[simp] theorem State.withCells_isOwnNumber (c : List CellRecord) (d0 : Byte) :
    (s.withCells c).isOwnNumber d0 = s.isOwnNumber d0 :=
    rfl
@[simp] theorem State.withCells_isOwnSegment (c : List CellRecord) (d0 : Byte) :
    (s.withCells c).isOwnSegment d0 = s.isOwnSegment d0 :=
    rfl
@[simp] theorem State.withCells_generalFull (c : List CellRecord) :
    (s.withCells c).generalFull = s.generalFull :=
    rfl
@[simp] theorem State.withCells_moving (c : List CellRecord) : (s.withCells c).moving = s.moving :=
    rfl

@[simp] theorem State.withComposer_term (c : Composer) (u : Fin 4) :
    (s.withComposer c).term u = s.term u :=
    rfl
@[simp] theorem State.withComposer_active (c : Composer) (u : Fin 4) :
    (s.withComposer c).active u = s.active u :=
    rfl
@[simp] theorem State.withComposer_listenOnly (c : Composer) :
    (s.withComposer c).listenOnly = s.listenOnly :=
    rfl
@[simp] theorem State.withComposer_isHead (c : Composer) : (s.withComposer c).isHead = s.isHead :=
    rfl
@[simp] theorem State.withComposer_isTail (c : Composer) : (s.withComposer c).isTail = s.isTail :=
    rfl
@[simp] theorem State.withComposer_isOwnNumber (c : Composer) (d0 : Byte) :
    (s.withComposer c).isOwnNumber d0 = s.isOwnNumber d0 :=
    rfl
@[simp] theorem State.withComposer_isOwnSegment (c : Composer) (d0 : Byte) :
    (s.withComposer c).isOwnSegment d0 = s.isOwnSegment d0 :=
    rfl
@[simp] theorem State.withComposer_generalFull (c : Composer) :
    (s.withComposer c).generalFull = s.generalFull :=
    rfl
@[simp] theorem State.withComposer_moving (c : Composer) : (s.withComposer c).moving = s.moving :=
    rfl

@[simp] theorem State.withCrawl_term (c : Crawl) (u : Fin 4) : (s.withCrawl c).term u = s.term u :=
    rfl
@[simp] theorem State.withCrawl_active (c : Crawl) (u : Fin 4) :
    (s.withCrawl c).active u = s.active u :=
    rfl
@[simp] theorem State.withCrawl_listenOnly (c : Crawl) :
    (s.withCrawl c).listenOnly = s.listenOnly :=
    rfl
@[simp] theorem State.withCrawl_isHead (c : Crawl) : (s.withCrawl c).isHead = s.isHead := rfl
@[simp] theorem State.withCrawl_isTail (c : Crawl) : (s.withCrawl c).isTail = s.isTail := rfl
@[simp] theorem State.withCrawl_isOwnNumber (c : Crawl) (d0 : Byte) :
    (s.withCrawl c).isOwnNumber d0 = s.isOwnNumber d0 :=
    rfl
@[simp] theorem State.withCrawl_isOwnSegment (c : Crawl) (d0 : Byte) :
    (s.withCrawl c).isOwnSegment d0 = s.isOwnSegment d0 :=
    rfl
@[simp] theorem State.withCrawl_generalFull (c : Crawl) :
    (s.withCrawl c).generalFull = s.generalFull :=
    rfl

@[simp] theorem State.withLamps_term (l : LampDriver) (u : Fin 4) :
    (s.withLamps l).term u = s.term u :=
    rfl
@[simp] theorem State.withLamps_active (l : LampDriver) (u : Fin 4) :
    (s.withLamps l).active u = s.active u :=
    rfl
@[simp] theorem State.withLamps_listenOnly (l : LampDriver) :
    (s.withLamps l).listenOnly = s.listenOnly :=
    rfl
@[simp] theorem State.withLamps_isHead (l : LampDriver) : (s.withLamps l).isHead = s.isHead := rfl
@[simp] theorem State.withLamps_isTail (l : LampDriver) : (s.withLamps l).isTail = s.isTail := rfl
@[simp] theorem State.withLamps_isOwnNumber (l : LampDriver) (d0 : Byte) :
    (s.withLamps l).isOwnNumber d0 = s.isOwnNumber d0 :=
    rfl
@[simp] theorem State.withLamps_isOwnSegment (l : LampDriver) (d0 : Byte) :
    (s.withLamps l).isOwnSegment d0 = s.isOwnSegment d0 :=
    rfl
@[simp] theorem State.withLamps_generalFull (l : LampDriver) :
    (s.withLamps l).generalFull = s.generalFull :=
    rfl
@[simp] theorem State.withLamps_moving (l : LampDriver) : (s.withLamps l).moving = s.moving := rfl

@[simp] theorem State.withTerminals_active (q : Quad Terminal) (u : Fin 4) :
    (s.withTerminals q).active u = s.active u :=
    rfl
@[simp] theorem State.withTerminals_listenOnly (q : Quad Terminal) :
    (s.withTerminals q).listenOnly = s.listenOnly :=
    rfl
@[simp] theorem State.withTerminals_isHead (q : Quad Terminal) :
    (s.withTerminals q).isHead = s.isHead :=
    rfl
@[simp] theorem State.withTerminals_isTail (q : Quad Terminal) :
    (s.withTerminals q).isTail = s.isTail :=
    rfl
@[simp] theorem State.withTerminals_isOwnNumber (q : Quad Terminal) (d0 : Byte) :
    (s.withTerminals q).isOwnNumber d0 = s.isOwnNumber d0 :=
    rfl
@[simp] theorem State.withTerminals_isOwnSegment (q : Quad Terminal) (d0 : Byte) :
    (s.withTerminals q).isOwnSegment d0 = s.isOwnSegment d0 :=
    rfl
@[simp] theorem State.withTerminals_generalFull (q : Quad Terminal) :
    (s.withTerminals q).generalFull = s.generalFull :=
    rfl
@[simp] theorem State.withTerminals_moving (q : Quad Terminal) :
    (s.withTerminals q).moving = s.moving :=
    rfl

@[simp] theorem State.withAskTag_term (n : Byte) (u : Fin 4) : (s.withAskTag n).term u = s.term u :=
    rfl
@[simp] theorem State.withAskTag_active (n : Byte) (u : Fin 4) :
    (s.withAskTag n).active u = s.active u :=
    rfl
@[simp] theorem State.withAskTag_listenOnly (n : Byte) :
    (s.withAskTag n).listenOnly = s.listenOnly :=
    rfl
@[simp] theorem State.withAskTag_isHead (n : Byte) : (s.withAskTag n).isHead = s.isHead := rfl
@[simp] theorem State.withAskTag_isTail (n : Byte) : (s.withAskTag n).isTail = s.isTail := rfl
@[simp] theorem State.withAskTag_isOwnNumber (n : Byte) (d0 : Byte) :
    (s.withAskTag n).isOwnNumber d0 = s.isOwnNumber d0 :=
    rfl
@[simp] theorem State.withAskTag_isOwnSegment (n : Byte) (d0 : Byte) :
    (s.withAskTag n).isOwnSegment d0 = s.isOwnSegment d0 :=
    rfl
@[simp] theorem State.withAskTag_generalFull (n : Byte) :
    (s.withAskTag n).generalFull = s.generalFull :=
    rfl
@[simp] theorem State.withAskTag_moving (n : Byte) : (s.withAskTag n).moving = s.moving := rfl

@[simp] theorem State.withLine_term (l : Line) (u : Fin 4) : (s.withLine l).term u = s.term u := rfl
@[simp] theorem State.withLine_active (l : Line) (u : Fin 4) :
    (s.withLine l).active u = s.active u :=
    rfl
@[simp] theorem State.withLine_listenOnly (l : Line) : (s.withLine l).listenOnly = s.listenOnly :=
    rfl
@[simp] theorem State.withLine_isHead (l : Line) : (s.withLine l).isHead = s.isHead := rfl
@[simp] theorem State.withLine_isTail (l : Line) : (s.withLine l).isTail = s.isTail := rfl
@[simp] theorem State.withLine_isOwnNumber (l : Line) (d0 : Byte) :
    (s.withLine l).isOwnNumber d0 = s.isOwnNumber d0 :=
    rfl
@[simp] theorem State.withLine_isOwnSegment (l : Line) (d0 : Byte) :
    (s.withLine l).isOwnSegment d0 = s.isOwnSegment d0 :=
    rfl
@[simp] theorem State.withLine_moving (l : Line) : (s.withLine l).moving = s.moving := rfl

@[simp] theorem State.withTallies_term (t : Tallies) (u : Fin 4) :
    (s.withTallies t).term u = s.term u :=
    rfl
@[simp] theorem State.withTallies_active (t : Tallies) (u : Fin 4) :
    (s.withTallies t).active u = s.active u :=
    rfl
@[simp] theorem State.withTallies_listenOnly (t : Tallies) :
    (s.withTallies t).listenOnly = s.listenOnly :=
    rfl
@[simp] theorem State.withTallies_isHead (t : Tallies) : (s.withTallies t).isHead = s.isHead := rfl
@[simp] theorem State.withTallies_isTail (t : Tallies) : (s.withTallies t).isTail = s.isTail := rfl
@[simp] theorem State.withTallies_isOwnNumber (t : Tallies) (d0 : Byte) :
    (s.withTallies t).isOwnNumber d0 = s.isOwnNumber d0 :=
    rfl
@[simp] theorem State.withTallies_isOwnSegment (t : Tallies) (d0 : Byte) :
    (s.withTallies t).isOwnSegment d0 = s.isOwnSegment d0 :=
    rfl
@[simp] theorem State.withTallies_generalFull (t : Tallies) :
    (s.withTallies t).generalFull = s.generalFull :=
    rfl
@[simp] theorem State.withTallies_moving (t : Tallies) : (s.withTallies t).moving = s.moving := rfl

@[simp] theorem State.withTickCount_term (n : TickCount) (u : Fin 4) :
    (s.withTickCount n).term u = s.term u :=
    rfl
@[simp] theorem State.withTickCount_active (n : TickCount) (u : Fin 4) :
    (s.withTickCount n).active u = s.active u :=
    rfl
@[simp] theorem State.withTickCount_listenOnly (n : TickCount) :
    (s.withTickCount n).listenOnly = s.listenOnly :=
    rfl
@[simp] theorem State.withTickCount_isHead (n : TickCount) :
    (s.withTickCount n).isHead = s.isHead :=
    rfl
@[simp] theorem State.withTickCount_isTail (n : TickCount) :
    (s.withTickCount n).isTail = s.isTail :=
    rfl
@[simp] theorem State.withTickCount_isOwnNumber (n : TickCount) (d0 : Byte) :
    (s.withTickCount n).isOwnNumber d0 = s.isOwnNumber d0 :=
    rfl
@[simp] theorem State.withTickCount_isOwnSegment (n : TickCount) (d0 : Byte) :
    (s.withTickCount n).isOwnSegment d0 = s.isOwnSegment d0 :=
    rfl
@[simp] theorem State.withTickCount_generalFull (n : TickCount) :
    (s.withTickCount n).generalFull = s.generalFull :=
    rfl
@[simp] theorem State.withTickCount_moving (n : TickCount) :
    (s.withTickCount n).moving = s.moving :=
    rfl

@[simp] theorem State.withSilence_term (n : Nat) (b : Bool) (u : Fin 4) :
    (s.withSilence n b).term u = s.term u :=
    rfl
@[simp] theorem State.withSilence_active (n : Nat) (b : Bool) (u : Fin 4) :
    (s.withSilence n b).active u = s.active u :=
    rfl
@[simp] theorem State.withSilence_listenOnly (n : Nat) (b : Bool) :
    (s.withSilence n b).listenOnly = s.listenOnly :=
    rfl
@[simp] theorem State.withSilence_isHead (n : Nat) (b : Bool) :
    (s.withSilence n b).isHead = s.isHead :=
    rfl
@[simp] theorem State.withSilence_isTail (n : Nat) (b : Bool) :
    (s.withSilence n b).isTail = s.isTail :=
    rfl
@[simp] theorem State.withSilence_isOwnNumber (n : Nat) (b : Bool) (d0 : Byte) :
    (s.withSilence n b).isOwnNumber d0 = s.isOwnNumber d0 :=
    rfl
@[simp] theorem State.withSilence_isOwnSegment (n : Nat) (b : Bool) (d0 : Byte) :
    (s.withSilence n b).isOwnSegment d0 = s.isOwnSegment d0 :=
    rfl
@[simp] theorem State.withSilence_generalFull (n : Nat) (b : Bool) :
    (s.withSilence n b).generalFull = s.generalFull :=
    rfl
@[simp] theorem State.withSilence_moving (n : Nat) (b : Bool) :
    (s.withSilence n b).moving = s.moving :=
    rfl

@[simp] theorem State.withReset_term (u : Fin 4) : (s.withReset).term u = s.term u := rfl
@[simp] theorem State.withReset_active (u : Fin 4) : (s.withReset).active u = s.active u := rfl
@[simp] theorem State.withReset_listenOnly : (s.withReset).listenOnly = s.listenOnly := rfl
@[simp] theorem State.withReset_isHead : (s.withReset).isHead = s.isHead := rfl
@[simp] theorem State.withReset_isTail : (s.withReset).isTail = s.isTail := rfl
@[simp] theorem State.withReset_isOwnNumber (d0 : Byte) :
    (s.withReset).isOwnNumber d0 = s.isOwnNumber d0 :=
    rfl
@[simp] theorem State.withReset_isOwnSegment (d0 : Byte) :
    (s.withReset).isOwnSegment d0 = s.isOwnSegment d0 :=
    rfl
@[simp] theorem State.withReset_generalFull : (s.withReset).generalFull = s.generalFull := rfl
@[simp] theorem State.withReset_moving : (s.withReset).moving = s.moving := rfl

@[simp] theorem State.withPending_term (q : List Instr) (u : Fin 4) :
    (s.withPending q).term u = s.term u :=
    rfl
@[simp] theorem State.withPending_active (q : List Instr) (u : Fin 4) :
    (s.withPending q).active u = s.active u :=
    rfl
@[simp] theorem State.withPending_listenOnly (q : List Instr) :
    (s.withPending q).listenOnly = s.listenOnly :=
    rfl
@[simp] theorem State.withPending_isHead (q : List Instr) : (s.withPending q).isHead = s.isHead :=
    rfl
@[simp] theorem State.withPending_isTail (q : List Instr) : (s.withPending q).isTail = s.isTail :=
    rfl
@[simp] theorem State.withPending_isOwnNumber (q : List Instr) (d0 : Byte) :
    (s.withPending q).isOwnNumber d0 = s.isOwnNumber d0 :=
    rfl
@[simp] theorem State.withPending_isOwnSegment (q : List Instr) (d0 : Byte) :
    (s.withPending q).isOwnSegment d0 = s.isOwnSegment d0 :=
    rfl
@[simp] theorem State.withPending_generalFull (q : List Instr) :
    (s.withPending q).generalFull = s.generalFull :=
    rfl
@[simp] theorem State.withPending_moving (q : List Instr) : (s.withPending q).moving = s.moving :=
    rfl

@[simp] theorem State.onRecord_term (y : Symbol) (f : QuoteRecord → QuoteRecord) (u : Fin 4) :
    (s.onRecord y f).term u = s.term u :=
    rfl
@[simp] theorem State.onRecord_active (y : Symbol) (f : QuoteRecord → QuoteRecord) (u : Fin 4) :
    (s.onRecord y f).active u = s.active u :=
    rfl
@[simp] theorem State.onRecord_listenOnly (y : Symbol) (f : QuoteRecord → QuoteRecord) :
    (s.onRecord y f).listenOnly = s.listenOnly :=
    rfl
@[simp] theorem State.onRecord_isHead (y : Symbol) (f : QuoteRecord → QuoteRecord) :
    (s.onRecord y f).isHead = s.isHead :=
    rfl
@[simp] theorem State.onRecord_isTail (y : Symbol) (f : QuoteRecord → QuoteRecord) :
    (s.onRecord y f).isTail = s.isTail :=
    rfl
@[simp] theorem State.onRecord_isOwnNumber (y : Symbol) (f : QuoteRecord → QuoteRecord) (d0 : Byte) :
    (s.onRecord y f).isOwnNumber d0 = s.isOwnNumber d0 :=
    rfl
@[simp] theorem State.onRecord_isOwnSegment (y : Symbol) (f : QuoteRecord → QuoteRecord) (d0 : Byte) :
    (s.onRecord y f).isOwnSegment d0 = s.isOwnSegment d0 :=
    rfl
@[simp] theorem State.onRecord_generalFull (y : Symbol) (f : QuoteRecord → QuoteRecord) :
    (s.onRecord y f).generalFull = s.generalFull :=
    rfl
@[simp] theorem State.onRecord_moving (y : Symbol) (f : QuoteRecord → QuoteRecord) :
    (s.onRecord y f).moving = s.moving :=
    rfl

@[simp] theorem State.onCells_term (ns : List (Fin 16)) (f : CellRecord → CellRecord) (u : Fin 4) :
    (s.onCells ns f).term u = s.term u :=
    rfl
@[simp] theorem State.onCells_active (ns : List (Fin 16)) (f : CellRecord → CellRecord) (u : Fin 4) :
    (s.onCells ns f).active u = s.active u :=
    rfl
@[simp] theorem State.onCells_listenOnly (ns : List (Fin 16)) (f : CellRecord → CellRecord) :
    (s.onCells ns f).listenOnly = s.listenOnly :=
    rfl
@[simp] theorem State.onCells_isHead (ns : List (Fin 16)) (f : CellRecord → CellRecord) :
    (s.onCells ns f).isHead = s.isHead :=
    rfl
@[simp] theorem State.onCells_isTail (ns : List (Fin 16)) (f : CellRecord → CellRecord) :
    (s.onCells ns f).isTail = s.isTail :=
    rfl
@[simp] theorem State.onCells_isOwnNumber (ns : List (Fin 16)) (f : CellRecord → CellRecord) (d0 : Byte) :
    (s.onCells ns f).isOwnNumber d0 = s.isOwnNumber d0 :=
    rfl
@[simp] theorem State.onCells_isOwnSegment (ns : List (Fin 16)) (f : CellRecord → CellRecord) (d0 : Byte) :
    (s.onCells ns f).isOwnSegment d0 = s.isOwnSegment d0 :=
    rfl
@[simp] theorem State.onCells_generalFull (ns : List (Fin 16)) (f : CellRecord → CellRecord) :
    (s.onCells ns f).generalFull = s.generalFull :=
    rfl
@[simp] theorem State.onCells_moving (ns : List (Fin 16)) (f : CellRecord → CellRecord) :
    (s.onCells ns f).moving = s.moving :=
    rfl

@[simp] theorem State.setTerm_active (t : Fin 4) (x : Terminal) (u : Fin 4) :
    (s.setTerm t x).active u = s.active u :=
    rfl
@[simp] theorem State.setTerm_listenOnly (t : Fin 4) (x : Terminal) :
    (s.setTerm t x).listenOnly = s.listenOnly :=
    rfl
@[simp] theorem State.setTerm_isHead (t : Fin 4) (x : Terminal) :
    (s.setTerm t x).isHead = s.isHead :=
    rfl
@[simp] theorem State.setTerm_isTail (t : Fin 4) (x : Terminal) :
    (s.setTerm t x).isTail = s.isTail :=
    rfl
@[simp] theorem State.setTerm_isOwnNumber (t : Fin 4) (x : Terminal) (d0 : Byte) :
    (s.setTerm t x).isOwnNumber d0 = s.isOwnNumber d0 :=
    rfl
@[simp] theorem State.setTerm_isOwnSegment (t : Fin 4) (x : Terminal) (d0 : Byte) :
    (s.setTerm t x).isOwnSegment d0 = s.isOwnSegment d0 :=
    rfl
@[simp] theorem State.setTerm_generalFull (t : Fin 4) (x : Terminal) :
    (s.setTerm t x).generalFull = s.generalFull :=
    rfl
@[simp] theorem State.setTerm_moving (t : Fin 4) (x : Terminal) :
    (s.setTerm t x).moving = s.moving :=
    rfl

@[simp] theorem State.onTerm_active (t : Fin 4) (f : Terminal → Terminal) (u : Fin 4) :
    (s.onTerm t f).active u = s.active u :=
    rfl
@[simp] theorem State.onTerm_listenOnly (t : Fin 4) (f : Terminal → Terminal) :
    (s.onTerm t f).listenOnly = s.listenOnly :=
    rfl
@[simp] theorem State.onTerm_isHead (t : Fin 4) (f : Terminal → Terminal) :
    (s.onTerm t f).isHead = s.isHead :=
    rfl
@[simp] theorem State.onTerm_isTail (t : Fin 4) (f : Terminal → Terminal) :
    (s.onTerm t f).isTail = s.isTail :=
    rfl
@[simp] theorem State.onTerm_isOwnNumber (t : Fin 4) (f : Terminal → Terminal) (d0 : Byte) :
    (s.onTerm t f).isOwnNumber d0 = s.isOwnNumber d0 :=
    rfl
@[simp] theorem State.onTerm_isOwnSegment (t : Fin 4) (f : Terminal → Terminal) (d0 : Byte) :
    (s.onTerm t f).isOwnSegment d0 = s.isOwnSegment d0 :=
    rfl
@[simp] theorem State.onTerm_generalFull (t : Fin 4) (f : Terminal → Terminal) :
    (s.onTerm t f).generalFull = s.generalFull :=
    rfl
@[simp] theorem State.onTerm_moving (t : Fin 4) (f : Terminal → Terminal) :
    (s.onTerm t f).moving = s.moving :=
    rfl

@[simp] theorem State.onCrawl_term (f : Crawl → Crawl) (u : Fin 4) :
    (s.onCrawl f).term u = s.term u :=
    rfl
@[simp] theorem State.onCrawl_active (f : Crawl → Crawl) (u : Fin 4) :
    (s.onCrawl f).active u = s.active u :=
    rfl
@[simp] theorem State.onCrawl_listenOnly (f : Crawl → Crawl) :
    (s.onCrawl f).listenOnly = s.listenOnly :=
    rfl
@[simp] theorem State.onCrawl_isHead (f : Crawl → Crawl) : (s.onCrawl f).isHead = s.isHead := rfl
@[simp] theorem State.onCrawl_isTail (f : Crawl → Crawl) : (s.onCrawl f).isTail = s.isTail := rfl
@[simp] theorem State.onCrawl_isOwnNumber (f : Crawl → Crawl) (d0 : Byte) :
    (s.onCrawl f).isOwnNumber d0 = s.isOwnNumber d0 :=
    rfl
@[simp] theorem State.onCrawl_isOwnSegment (f : Crawl → Crawl) (d0 : Byte) :
    (s.onCrawl f).isOwnSegment d0 = s.isOwnSegment d0 :=
    rfl
@[simp] theorem State.onCrawl_generalFull (f : Crawl → Crawl) :
    (s.onCrawl f).generalFull = s.generalFull :=
    rfl

@[simp] theorem State.onComposer_term (f : Composer → Composer) (u : Fin 4) :
    (s.onComposer f).term u = s.term u :=
    rfl
@[simp] theorem State.onComposer_active (f : Composer → Composer) (u : Fin 4) :
    (s.onComposer f).active u = s.active u :=
    rfl
@[simp] theorem State.onComposer_listenOnly (f : Composer → Composer) :
    (s.onComposer f).listenOnly = s.listenOnly :=
    rfl
@[simp] theorem State.onComposer_isHead (f : Composer → Composer) :
    (s.onComposer f).isHead = s.isHead :=
    rfl
@[simp] theorem State.onComposer_isTail (f : Composer → Composer) :
    (s.onComposer f).isTail = s.isTail :=
    rfl
@[simp] theorem State.onComposer_isOwnNumber (f : Composer → Composer) (d0 : Byte) :
    (s.onComposer f).isOwnNumber d0 = s.isOwnNumber d0 :=
    rfl
@[simp] theorem State.onComposer_isOwnSegment (f : Composer → Composer) (d0 : Byte) :
    (s.onComposer f).isOwnSegment d0 = s.isOwnSegment d0 :=
    rfl
@[simp] theorem State.onComposer_generalFull (f : Composer → Composer) :
    (s.onComposer f).generalFull = s.generalFull :=
    rfl
@[simp] theorem State.onComposer_moving (f : Composer → Composer) :
    (s.onComposer f).moving = s.moving :=
    rfl

@[simp] theorem State.onLine_term (f : Line → Line) (u : Fin 4) : (s.onLine f).term u = s.term u :=
    rfl
@[simp] theorem State.onLine_active (f : Line → Line) (u : Fin 4) :
    (s.onLine f).active u = s.active u :=
    rfl
@[simp] theorem State.onLine_listenOnly (f : Line → Line) :
    (s.onLine f).listenOnly = s.listenOnly :=
    rfl
@[simp] theorem State.onLine_isHead (f : Line → Line) : (s.onLine f).isHead = s.isHead := rfl
@[simp] theorem State.onLine_isTail (f : Line → Line) : (s.onLine f).isTail = s.isTail := rfl
@[simp] theorem State.onLine_isOwnNumber (f : Line → Line) (d0 : Byte) :
    (s.onLine f).isOwnNumber d0 = s.isOwnNumber d0 :=
    rfl
@[simp] theorem State.onLine_isOwnSegment (f : Line → Line) (d0 : Byte) :
    (s.onLine f).isOwnSegment d0 = s.isOwnSegment d0 :=
    rfl
@[simp] theorem State.onLine_moving (f : Line → Line) : (s.onLine f).moving = s.moving := rfl

@[simp] theorem State.onAssembly_term (f : Assembly → Assembly) (u : Fin 4) :
    (s.onAssembly f).term u = s.term u :=
    rfl
@[simp] theorem State.onAssembly_active (f : Assembly → Assembly) (u : Fin 4) :
    (s.onAssembly f).active u = s.active u :=
    rfl
@[simp] theorem State.onAssembly_listenOnly (f : Assembly → Assembly) :
    (s.onAssembly f).listenOnly = s.listenOnly :=
    rfl
@[simp] theorem State.onAssembly_isHead (f : Assembly → Assembly) :
    (s.onAssembly f).isHead = s.isHead :=
    rfl
@[simp] theorem State.onAssembly_isTail (f : Assembly → Assembly) :
    (s.onAssembly f).isTail = s.isTail :=
    rfl
@[simp] theorem State.onAssembly_isOwnNumber (f : Assembly → Assembly) (d0 : Byte) :
    (s.onAssembly f).isOwnNumber d0 = s.isOwnNumber d0 :=
    rfl
@[simp] theorem State.onAssembly_isOwnSegment (f : Assembly → Assembly) (d0 : Byte) :
    (s.onAssembly f).isOwnSegment d0 = s.isOwnSegment d0 :=
    rfl
@[simp] theorem State.onAssembly_moving (f : Assembly → Assembly) :
    (s.onAssembly f).moving = s.moving :=
    rfl

@[simp] theorem State.count_term (k : Tally) (u : Fin 4) : (s.count k).term u = s.term u := rfl
@[simp] theorem State.count_active (k : Tally) (u : Fin 4) : (s.count k).active u = s.active u :=
    rfl
@[simp] theorem State.count_listenOnly (k : Tally) : (s.count k).listenOnly = s.listenOnly := rfl
@[simp] theorem State.count_isHead (k : Tally) : (s.count k).isHead = s.isHead := rfl
@[simp] theorem State.count_isTail (k : Tally) : (s.count k).isTail = s.isTail := rfl
@[simp] theorem State.count_isOwnNumber (k : Tally) (d0 : Byte) :
    (s.count k).isOwnNumber d0 = s.isOwnNumber d0 :=
    rfl
@[simp] theorem State.count_isOwnSegment (k : Tally) (d0 : Byte) :
    (s.count k).isOwnSegment d0 = s.isOwnSegment d0 :=
    rfl
@[simp] theorem State.count_generalFull (k : Tally) : (s.count k).generalFull = s.generalFull := rfl
@[simp] theorem State.count_moving (k : Tally) : (s.count k).moving = s.moving := rfl

@[simp] theorem State.appendGeneral_term (d : Byte) (p : TxPayload) (u : Fin 4) :
    (s.appendGeneral d p).term u = s.term u :=
    rfl
@[simp] theorem State.appendGeneral_active (d : Byte) (p : TxPayload) (u : Fin 4) :
    (s.appendGeneral d p).active u = s.active u :=
    rfl
@[simp] theorem State.appendGeneral_listenOnly (d : Byte) (p : TxPayload) :
    (s.appendGeneral d p).listenOnly = s.listenOnly :=
    rfl
@[simp] theorem State.appendGeneral_isHead (d : Byte) (p : TxPayload) :
    (s.appendGeneral d p).isHead = s.isHead :=
    rfl
@[simp] theorem State.appendGeneral_isTail (d : Byte) (p : TxPayload) :
    (s.appendGeneral d p).isTail = s.isTail :=
    rfl
@[simp] theorem State.appendGeneral_isOwnNumber (d : Byte) (p : TxPayload) (d0 : Byte) :
    (s.appendGeneral d p).isOwnNumber d0 = s.isOwnNumber d0 :=
    rfl
@[simp] theorem State.appendGeneral_isOwnSegment (d : Byte) (p : TxPayload) (d0 : Byte) :
    (s.appendGeneral d p).isOwnSegment d0 = s.isOwnSegment d0 :=
    rfl
@[simp] theorem State.appendGeneral_moving (d : Byte) (p : TxPayload) :
    (s.appendGeneral d p).moving = s.moving :=
    rfl

@[simp] theorem State.appendTape_term (d : Byte) (p : TxPayload) (u : Fin 4) :
    (s.appendTape d p).term u = s.term u :=
    rfl
@[simp] theorem State.appendTape_active (d : Byte) (p : TxPayload) (u : Fin 4) :
    (s.appendTape d p).active u = s.active u :=
    rfl
@[simp] theorem State.appendTape_listenOnly (d : Byte) (p : TxPayload) :
    (s.appendTape d p).listenOnly = s.listenOnly :=
    rfl
@[simp] theorem State.appendTape_isHead (d : Byte) (p : TxPayload) :
    (s.appendTape d p).isHead = s.isHead :=
    rfl
@[simp] theorem State.appendTape_isTail (d : Byte) (p : TxPayload) :
    (s.appendTape d p).isTail = s.isTail :=
    rfl
@[simp] theorem State.appendTape_isOwnNumber (d : Byte) (p : TxPayload) (d0 : Byte) :
    (s.appendTape d p).isOwnNumber d0 = s.isOwnNumber d0 :=
    rfl
@[simp] theorem State.appendTape_isOwnSegment (d : Byte) (p : TxPayload) (d0 : Byte) :
    (s.appendTape d p).isOwnSegment d0 = s.isOwnSegment d0 :=
    rfl
@[simp] theorem State.appendTape_moving (d : Byte) (p : TxPayload) :
    (s.appendTape d p).moving = s.moving :=
    rfl

end Sys2Proof.Machine
end

