-- ==== Sys2Proof/Laws/Ops.lean ====
section
/-!
SUPPORT. What the shared operations do, said once each: the terminals' four places, the counts, the
outcome of a meaning, the transmit queues, the record lookups, and a key taken at once.
-/
namespace Sys2Proof.Machine

/-! ### The four terminals -/

@[simp] theorem Quad.get_set_self {α : Type} (q : Quad α) (t : Fin 4) (x : α) :
    (q.set t x).get t = x := by
  fin_cases t <;> rfl

theorem Quad.get_set_of_ne {α : Type} (q : Quad α) {t u : Fin 4} (x : α) (h : u ≠ t) :
    (q.set t x).get u = q.get u := by
  fin_cases t <;> fin_cases u <;> first | rfl | exact absurd rfl h

@[simp] theorem Quad.set_set {α : Type} (q : Quad α) (t : Fin 4) (x y : α) :
    (q.set t x).set t y = q.set t y := by
  fin_cases t <;> rfl

@[simp] theorem Quad.set_get {α : Type} (q : Quad α) (t : Fin 4) : q.set t (q.get t) = q := by
  fin_cases t <;> rfl

@[simp] theorem Quad.get_map {α : Type} (f : α → α) (q : Quad α) (t : Fin 4) :
    (q.map f).get t = f (q.get t) := by
  fin_cases t <;> rfl

@[simp] theorem State.term_setTerm_self (s : State) (t : Fin 4) (x : Terminal) :
    (s.setTerm t x).term t = x := Quad.get_set_self _ _ _

theorem State.term_setTerm_of_ne (s : State) {t u : Fin 4} (x : Terminal) (h : u ≠ t) :
    (s.setTerm t x).term u = s.term u := Quad.get_set_of_ne _ _ h

@[simp] theorem State.setTerm_setTerm (s : State) (t : Fin 4) (x y : Terminal) :
    (s.setTerm t x).setTerm t y = s.setTerm t y := by
  simp [State.setTerm, State.withTerminals]

@[simp] theorem State.setTerm_term (s : State) (t : Fin 4) : s.setTerm t (s.term t) = s := by
  simp [State.setTerm, State.withTerminals, State.term]

theorem State.onTerm_eq (s : State) (t : Fin 4) (f : Terminal → Terminal) :
    s.onTerm t f = s.setTerm t (f (s.term t)) := rfl

@[simp] theorem State.term_onTerm_self (s : State) (t : Fin 4) (f : Terminal → Terminal) :
    (s.onTerm t f).term t = f (s.term t) := State.term_setTerm_self _ _ _

theorem State.term_onTerm_of_ne (s : State) {t u : Fin 4} (f : Terminal → Terminal) (h : u ≠ t) :
    (s.onTerm t f).term u = s.term u := State.term_setTerm_of_ne _ _ h

@[simp] theorem State.onTerm_onTerm (s : State) (t : Fin 4) (f g : Terminal → Terminal) :
    (s.onTerm t f).onTerm t g = s.onTerm t (fun m => g (f m)) := by
  simp [State.onTerm_eq]

theorem State.onTerm_of_eq (s : State) (t : Fin 4) {f : Terminal → Terminal}
    (h : f (s.term t) = s.term t) : s.onTerm t f = s := by
  simp [State.onTerm_eq, h]

/-! ### Counts -/

theorem saturate_le {n : Nat} (h : n ≤ Config.tallyMax) : saturate n ≤ Config.tallyMax := by
  unfold saturate; split <;> simp only [Config.tallyMax] at * <;> omega

@[simp] theorem Tallies.get_bump_self (c : Tallies) (k : Tally) :
    (c.bump k).get k = saturate (c.get k) := by
  cases k <;> rfl

theorem Tallies.get_bump_of_ne (c : Tallies) {k j : Tally} (h : j ≠ k) :
    (c.bump k).get j = c.get j := by
  cases k <;> cases j <;> first | rfl | exact absurd rfl h

/-! ### The outcome of a meaning -/

theorem inService_of_running {s : State} (h : s.resetAsserted = false) (f : State → State) :
    inService s f = .next (f s) := by
  simp [inService, h]

theorem inService_of_reset {s : State} (h : s.resetAsserted = true) (f : State → State) :
    inService s f = .next s := by
  simp [inService, h]

/-- All an in-service meaning can answer. -/
theorem inService_next {s t : State} {f : State → State} (h : inService s f = .next t) :
    (s.resetAsserted = true ∧ t = s) ∨ (s.resetAsserted = false ∧ t = f s) := by
  cases hr : s.resetAsserted <;> simp_all [inService]

/-! ### Records -/

/-- A lookup that answers gives a record of the table with the symbol. -/
theorem findRecord_some {y : Symbol} {table : List QuoteRecord} {r : QuoteRecord}
    (h : findRecord y table = some r) : r ∈ table ∧ r.symbol = y := by
  unfold findRecord at h
  exact ⟨List.mem_of_find?_eq_some h, by simpa using List.find?_some h⟩

/-- A lookup that answers none: no record has the symbol. -/
theorem findRecord_none {y : Symbol} {table : List QuoteRecord} :
    findRecord y table = none ↔ ∀ r ∈ table, r.symbol ≠ y := by
  simp [findRecord, List.find?_eq_none]

theorem mem_updateRecord {y : Symbol} {f : QuoteRecord → QuoteRecord} {table : List QuoteRecord}
    {q : QuoteRecord} :
    q ∈ updateRecord y f table ↔ ∃ r ∈ table, q = if r.symbol = y then f r else r := by
  simp [updateRecord, eq_comm]

@[simp] theorem updateRecord_length (y : Symbol) (f : QuoteRecord → QuoteRecord)
    (table : List QuoteRecord) : (updateRecord y f table).length = table.length := by
  simp [updateRecord]

/-- An update that keeps symbols keeps the table's list of symbols. -/
theorem updateRecord_symbols {y : Symbol} {f : QuoteRecord → QuoteRecord} (table : List QuoteRecord)
    (hf : ∀ r, (f r).symbol = r.symbol) :
    (updateRecord y f table).map QuoteRecord.symbol = table.map QuoteRecord.symbol := by
  simp only [updateRecord, List.map_map]
  apply List.map_congr_left
  intro r _
  simp only [Function.comp]
  split <;> simp [hf]

/-- The lookup of a symbol after an update of another one's record. -/
theorem findRecord_updateRecord_of_ne {y z : Symbol} {f : QuoteRecord → QuoteRecord}
    (table : List QuoteRecord) (hf : ∀ r, (f r).symbol = r.symbol) (h : z ≠ y) :
    findRecord z (updateRecord y f table) = findRecord z table := by
  induction table with
  | nil => rfl
  | cons r rs ih =>
    simp only [findRecord, updateRecord] at ih
    simp only [findRecord, updateRecord, List.map_cons, List.find?_cons]
    by_cases hy : r.symbol = y
    · have hz : (r.symbol == z) = false := by simpa [hy] using fun e : y = z => h e.symm
      rw [if_pos hy, hf, hz]
      exact ih
    · rw [if_neg hy, ih]

/-- The lookup of a symbol after an update of its record. -/
theorem findRecord_updateRecord_self {y : Symbol} {f : QuoteRecord → QuoteRecord}
    (table : List QuoteRecord) (hf : ∀ r, (f r).symbol = r.symbol) :
    findRecord y (updateRecord y f table) = (findRecord y table).map f := by
  induction table with
  | nil => rfl
  | cons r rs ih =>
    by_cases hy : r.symbol = y
    · simp [findRecord, updateRecord, hy, hf]
    · simp only [findRecord, updateRecord] at ih
      simp [findRecord, updateRecord, hy, ih]

/-- After ensureHeld the symbol is held. -/
theorem findRecord_ensureHeld (y : Symbol) (table : List QuoteRecord) :
    (findRecord y (ensureHeld y table)).isSome := by
  unfold ensureHeld
  cases h : findRecord y table with
  | some r => simp [h]
  | none => simp [install, findRecord, QuoteRecord.fresh]

/-! ### The transmit queues -/

/-- A withdrawal leaves no frame that was not there. -/
theorem withdraw_generalQueue_length (s : State) (p : TxFrame → Bool) :
    (s.withdraw p).line.generalQueue.length ≤ s.line.generalQueue.length := by
  simp only [State.withdraw, State.onLine_line]
  cases hq : s.line.generalQueue with
  | nil => cases s.sendingGeneral <;> simp [waitingFrames]
  | cons f fs =>
    cases s.sendingGeneral
    · simpa [waitingFrames] using List.length_filter_le (fun g => !p g) (f :: fs)
    · have := List.length_filter_le (fun g => !p g) fs
      simp only [waitingFrames, if_true, List.take_succ_cons, List.take_zero, List.tail_cons,
        List.length_append, List.length_cons, List.length_nil]
      omega

/-- All a Pace request can do: nothing, set the pending mark, or queue one Pace and clear it. -/
theorem requestPace_cases (s : State) :
    requestPace s = s ∨
    (s.generalFull = true ∧
      requestPace s = s.onCrawl (fun c => { c with pendingPace := true })) ∨
    (∃ r, s.straps.ribbon = some r ∧ s.straps.segment = 0 ∧ s.listenOnly = false ∧
      s.generalFull = false ∧
      requestPace s = (queuePace r s).onCrawl (fun c => { c with pendingPace := false })) := by
  unfold requestPace
  cases hr : s.straps.ribbon with
  | none => simp
  | some r =>
    simp only
    split
    · exact .inl rfl
    · rename_i h1
      split
      · exact .inl rfl
      · split
        · rename_i h3
          exact .inr (.inl ⟨h3, rfl⟩)
        · rename_i h3
          refine .inr (.inr ⟨r, rfl, ?_, ?_, ?_, rfl⟩) <;> simp_all

/-- All a pending request can do. -/
theorem meetPendingPace_cases (s : State) :
    meetPendingPace s = s ∨
    (∃ r, s.straps.ribbon = some r ∧ s.crawl.pendingPace = true ∧ s.generalFull = false ∧
      meetPendingPace s = (queuePace r s).onCrawl (fun c => { c with pendingPace := false })) := by
  unfold meetPendingPace
  cases hr : s.straps.ribbon with
  | none => simp
  | some r =>
    simp only
    split
    · rename_i h
      simp only [Bool.and_eq_true, Bool.not_eq_true'] at h
      exact .inr ⟨r, rfl, h.1, h.2, rfl⟩
    · exact .inl rfl

end Sys2Proof.Machine
end

