-- ==== Sys2Proof/Laws/Composer.lean ====
section
/-!
SUPPORT. The composer's shared operations: what the composition of a set and the entry to a level can
change, and what an admission can do.
-/
namespace Sys2Proof.Machine

/-- s with another tape hold, next index and next entry column: all a composition changes. -/
def State.withComposed (s : State) (hold : List TapeChar) (i : Col) (e : Option Col) : State :=
  (s.onCrawl (fun c => { c with hold := hold })).onComposer
    (fun c => { c with nextIndex := i, nextEntry := e })

theorem composeChar_eq (s : State) (x : Glyph × Attr) :
    composeChar s x = s.withComposed (s.crawl.hold ++
        [⟨s.composer.nextIndex, entryColumn s.crawl.stepCount s.composer.nextEntry, x.1, x.2, false⟩])
      (s.composer.nextIndex + 1)
      (some (entryColumn s.crawl.stepCount s.composer.nextEntry + 6)) := rfl

/-- R84: all the composition of a set can do: the characters join the hold's back in order, unsent,
and the next index counts them. -/
theorem composeSet_eq (set : List (Glyph × Attr)) (s : State) :
    ∃ new e, composeSet set s = s.withComposed (s.crawl.hold ++ new)
        (s.composer.nextIndex + BitVec.ofNat 24 set.length) e ∧
      new.map (fun c => (c.glyph, c.attr)) = set ∧ (∀ c ∈ new, c.sent = false) ∧
      (set = [] → e = s.composer.nextEntry) ∧ (set ≠ [] → e.isSome) ∧
      (∀ c cs, new = c :: cs →
        c.entry = entryColumn s.crawl.stepCount s.composer.nextEntry) ∧
      (∀ i c, new[i]? = some c → c.index = s.composer.nextIndex + BitVec.ofNat 24 i) := by
  induction set generalizing s with
  | nil =>
    refine ⟨[], s.composer.nextEntry, ?_, rfl, by simp, fun _ => rfl, by simp, by simp, by simp⟩
    simp [composeSet, State.withComposed, State.onCrawl, State.onComposer, State.withCrawl,
      State.withComposer]
  | cons x xs ih =>
    obtain ⟨new, e, h1, h2, h3, h4, h5, h6, h7⟩ := ih (composeChar s x)
    rw [composeChar_eq] at h1 h4 h7
    refine ⟨⟨s.composer.nextIndex, entryColumn s.crawl.stepCount s.composer.nextEntry, x.1, x.2,
      false⟩ :: new, e, ?_, ?_, ?_, by simp, ?_, ?_, ?_⟩
    · rw [show composeSet (x :: xs) s = composeSet xs (composeChar s x) from rfl, composeChar_eq, h1]
      simp only [State.withComposed, State.onCrawl, State.onComposer, State.withCrawl,
        State.withComposer, List.length_cons, List.append_assoc, List.singleton_append]
      congr 2
      rw [Nat.add_comm, BitVec.ofNat_add, BitVec.add_assoc]
      rfl
    · simp [h2]
    · simpa using h3
    · intro _
      by_cases hx : xs = []
      · rw [h4 hx]; rfl
      · exact h5 hx
    · intro c cs hc
      rw [List.cons.injEq] at hc
      rw [← hc.1]
    · intro i c hc
      cases i with
      | zero =>
        simp only [List.getElem?_cons_zero, Option.some.injEq] at hc
        rw [← hc]
        simp
      | succ i =>
        rw [List.getElem?_cons_succ] at hc
        rw [h7 i c hc]
        simp only [State.withComposed, State.onComposer_composer]
        rw [Nat.add_comm, BitVec.ofNat_add, BitVec.add_assoc]
        rfl

/-- R65 to R68: all an admission can do. -/
theorem enqueueItem_cases (i : TapeItem) (s : State) :
    (s.composer.printQueue.length < Config.printQueueSize ∧ enqueueItem i s =
      s.onComposer (fun c => { c with printQueue := c.printQueue ++ [i], idleTimer := none })) ∨
    (Config.printQueueSize ≤ s.composer.printQueue.length ∧ enqueueItem i s =
      (s.count .tapeRefused).onComposer (fun c => { c with overflow := true })) := by
  unfold enqueueItem
  split
  · exact .inl ⟨‹_›, rfl⟩
  · exact .inr ⟨by omega, rfl⟩

/-- R72: the entry to a level changes the level, the pace level, the staged period and what a Pace
request changes; the hold and the composer's queues are left. -/
theorem enterLevel_keeps (n : Nat) (s : State) :
    (enterLevel n s).composer = { s.composer with level := n } ∧
    (enterLevel n s).crawl.hold = s.crawl.hold ∧ (enterLevel n s).crawl.paceLevel = n ∧
    (enterLevel n s).crawl.staged = some (pacePeriod n) ∧
    (enterLevel n s).crawl.stepCount = s.crawl.stepCount ∧
    (enterLevel n s).tallies = s.tallies ∧ (enterLevel n s).table = s.table ∧
    (enterLevel n s).line.tapeQueue = s.line.tapeQueue := by
  unfold enterLevel
  rcases requestPace_cases ((s.onComposer (fun c => { c with level := n })).onCrawl
    (fun c => { c with paceLevel := n, staged := some (pacePeriod n) })) with h | ⟨_, h⟩ |
      ⟨r, _, _, _, _, h⟩ <;> rw [h] <;> exact ⟨rfl, rfl, rfl, rfl, rfl, rfl, rfl, rfl⟩

end Sys2Proof.Machine
end

