-- ==== Sys2Proof/Laws/Crawl.lean ====
section
/-!
SUPPORT. The crawl unit's shared operations: what removal, forwarding and the judgement of a hold can
change, what they leave of the hold, and what the placement of one character can do.
-/
namespace Sys2Proof.Machine

/-- s with another tape hold and another tape queue. -/
def State.withHoldAndTape (s : State) (hold : List TapeChar) (q : List TxFrame) : State :=
  (s.onCrawl (fun c => { c with hold := hold })).onLine (fun l => { l with tapeQueue := q })

/-- A character that stands for one of a hold: the same but for a sent flag that may have come on. -/
def heldIn (hold : List TapeChar) (c : TapeChar) : Prop :=
  ∃ b ∈ hold, c.index = b.index ∧ c.entry = b.entry ∧ c.glyph = b.glyph ∧ c.attr = b.attr ∧
    (b.sent = true → c.sent = true)

theorem heldIn_self {hold : List TapeChar} {c : TapeChar} (h : c ∈ hold) : heldIn hold c :=
  ⟨c, h, rfl, rfl, rfl, rfl, id⟩

theorem heldIn_trans {h1 h2 : List TapeChar} {c : TapeChar} (hc : heldIn h2 c)
    (h : ∀ b ∈ h2, heldIn h1 b) : heldIn h1 c := by
  obtain ⟨b, hb, i, e, g, a, f⟩ := hc
  obtain ⟨d, hd, i', e', g', a', f'⟩ := h b hb
  exact ⟨d, hd, i.trans i', e.trans e', g.trans g', a.trans a', fun x => f (f' x)⟩

/-- The edges and the role do not depend on the hold or the tape queue. -/
@[simp] theorem State.leftCol_withHoldAndTape (s : State) (hold : List TapeChar) (q : List TxFrame) :
    (s.withHoldAndTape hold q).leftCol = s.leftCol := rfl

@[simp] theorem State.isTail_withHoldAndTape (s : State) (hold : List TapeChar) (q : List TxFrame) :
    (s.withHoldAndTape hold q).isTail = s.isTail := rfl

@[simp] theorem State.listenOnly_withHoldAndTape (s : State) (hold : List TapeChar)
    (q : List TxFrame) : (s.withHoldAndTape hold q).listenOnly = s.listenOnly := rfl

@[simp] theorem State.hold_withHoldAndTape (s : State) (hold : List TapeChar) (q : List TxFrame) :
    (s.withHoldAndTape hold q).crawl.hold = hold := rfl

@[simp] theorem State.tapeQueue_withHoldAndTape (s : State) (hold : List TapeChar)
    (q : List TxFrame) : (s.withHoldAndTape hold q).line.tapeQueue = q := rfl

@[simp] theorem State.withHoldAndTape_twice (s : State) (h1 h2 : List TapeChar)
    (q1 q2 : List TxFrame) : (s.withHoldAndTape h1 q1).withHoldAndTape h2 q2 = s.withHoldAndTape h2 q2 :=
  rfl

theorem State.withHoldAndTape_self (s : State) :
    s.withHoldAndTape s.crawl.hold s.line.tapeQueue = s := rfl

/-- R108: after the removal test no held character is passed, but for an unsent one at a segment that
is not the tail. -/
def holdJudged (s : State) : Prop :=
  ∀ c ∈ s.crawl.hold, c.passed s.leftCol = true → c.sent = false ∧ s.isTail = false

/-- R108: all the removal test can do. -/
theorem removePassed_eq (s : State) :
    removePassed s = s.withHoldAndTape (keptChars s.leftCol s.isTail s.crawl.hold) s.line.tapeQueue :=
  rfl

theorem removePassed_holdJudged (s : State) : holdJudged (removePassed s) := by
  intro c hc hp
  rw [removePassed_eq, State.hold_withHoldAndTape, keptChars, List.mem_filter] at hc
  rw [removePassed_eq, State.leftCol_withHoldAndTape] at hp
  rw [removePassed_eq, State.isTail_withHoldAndTape]
  have := hc.2
  rw [hp] at this
  cases hs : c.sent <;> cases ht : s.isTail <;> simp_all

theorem keptChars_heldIn {left : Col} {tail : Bool} {hold : List TapeChar} {c : TapeChar}
    (h : c ∈ keptChars left tail hold) : heldIn hold c :=
  heldIn_self (List.mem_of_mem_filter h)

/-- R106: all the handing on of one batch can do. -/
theorem sendBatch_eq (batch : List TapeChar) (s : State) :
    ∃ hold q, sendBatch batch s = s.withHoldAndTape hold q ∧
      (∀ c ∈ hold, heldIn s.crawl.hold c) ∧ (s.listenOnly = true → q = s.line.tapeQueue) ∧
      hold.length ≤ s.crawl.hold.length := by
  have hmark : ∀ u : State, u.crawl.hold = s.crawl.hold → ∀ c ∈ (markSent batch u).crawl.hold,
      heldIn s.crawl.hold c := by
    intro u hu c hc
    simp only [markSent, State.onCrawl_crawl, List.mem_map, hu] at hc
    obtain ⟨b, hb, rfl⟩ := hc
    refine ⟨b, hb, ?_, ?_, ?_, ?_, ?_⟩ <;> split <;> simp
  have hlen : ∀ u : State, u.crawl.hold = s.crawl.hold →
      (markSent batch u).crawl.hold.length = s.crawl.hold.length := by
    intro u hu
    simp [markSent, hu]
  cases hl : s.listenOnly with
  | true =>
    refine ⟨keptChars s.leftCol s.isTail (markSent batch s).crawl.hold, s.line.tapeQueue,
      by rw [sendBatch, hl, if_pos rfl]; rfl, fun c hc => ?_, fun _ => rfl, ?_⟩
    · exact heldIn_trans (keptChars_heldIn hc) (hmark s rfl)
    · exact (List.length_filter_le _ _).trans (le_of_eq (hlen s rfl))
  | false =>
    have hq : ∃ q, queueHandoff batch s = s.withHoldAndTape s.crawl.hold q := by
      unfold queueHandoff
      split
      · exact ⟨_, rfl⟩
      · exact ⟨_, s.withHoldAndTape_self.symm⟩
    obtain ⟨q, hq⟩ := hq
    refine ⟨keptChars s.leftCol s.isTail (markSent batch (s.withHoldAndTape s.crawl.hold q)).crawl.hold,
      q, ?_, fun c hc => ?_, fun h => (Bool.noConfusion h), ?_⟩
    · unfold sendBatch
      rw [hl, hq]
      rfl
    · exact heldIn_trans (keptChars_heldIn hc) (hmark _ rfl)
    · exact (List.length_filter_le _ _).trans (le_of_eq (hlen _ rfl))

/-- R105 to R108: all the handing on of due batches can do. -/
theorem forward_eq (n : Nat) (s : State) :
    ∃ hold q, forward n s = s.withHoldAndTape hold q ∧ (∀ c ∈ hold, heldIn s.crawl.hold c) ∧
      (s.isTail = true ∨ s.listenOnly = true → q = s.line.tapeQueue) ∧
      hold.length ≤ s.crawl.hold.length := by
  induction n generalizing s with
  | zero =>
    exact ⟨_, _, s.withHoldAndTape_self.symm, fun c hc => heldIn_self hc, fun _ => rfl, le_rfl⟩
  | succ n ih =>
    have hself : ∃ hold q, s = s.withHoldAndTape hold q ∧ (∀ c ∈ hold, heldIn s.crawl.hold c) ∧
        (s.isTail = true ∨ s.listenOnly = true → q = s.line.tapeQueue) ∧
        hold.length ≤ s.crawl.hold.length :=
      ⟨_, _, s.withHoldAndTape_self.symm, fun c hc => heldIn_self hc, fun _ => rfl, le_rfl⟩
    unfold forward
    split
    · exact hself
    · rename_i c cs hb
      split
      · obtain ⟨h1, q1, e1, m1, l1, n1⟩ := sendBatch_eq (c :: cs) s
        obtain ⟨h2, q2, e2, m2, l2, n2⟩ := ih (sendBatch (c :: cs) s)
        rw [e1] at e2 m2 l2 n2
        refine ⟨h2, q2, by rw [e1, e2]; rfl, fun x hx => heldIn_trans (m2 x hx) m1, fun h => ?_,
          n2.trans n1⟩
        have hl : s.listenOnly = true := by
          rcases h with h | h
          · simp [dueBatch, h] at hb
          · exact h
        exact (l2 (.inr hl)).trans (l1 hl)
      · exact hself

/-- Handing on keeps a judged hold judged. -/
theorem forward_holdJudged (n : Nat) {s : State} (h : holdJudged s) : holdJudged (forward n s) := by
  induction n generalizing s with
  | zero => exact h
  | succ n ih =>
    unfold forward
    split
    · exact h
    · split
      · exact ih (by unfold sendBatch; exact removePassed_holdJudged _)
      · exact h

/-- R105, R108: all the judgement of a hold can do. -/
theorem judgeHold_eq (s : State) :
    ∃ hold q, judgeHold s = s.withHoldAndTape hold q ∧ (∀ c ∈ hold, heldIn s.crawl.hold c) ∧
      (s.isTail = true ∨ s.listenOnly = true → q = s.line.tapeQueue) ∧
      hold.length ≤ s.crawl.hold.length := by
  obtain ⟨h, q, e, m, l, n⟩ := forward_eq Config.holdSize (removePassed s)
  rw [removePassed_eq] at e m l n
  exact ⟨h, q, e, fun c hc => heldIn_trans (m c hc) (fun b hb => keptChars_heldIn hb), l,
    n.trans (List.length_filter_le _ _)⟩

theorem judgeHold_holdJudged (s : State) : holdJudged (judgeHold s) :=
  forward_holdJudged _ (removePassed_holdJudged s)

/-- R102, R103: all the placement of one character can do. -/
theorem placeChar_cases (c : TapeChar) (s : State) :
    (dropsChar c s.crawl.hold = true ∧ placeChar c s = s.count .charsDropped) ∨
    (dropsChar c s.crawl.hold = false ∧ s.moving = true ∧ c.passed s.leftCol = true ∧
      s.isTail = true ∧ placeChar c s = s.count .lateChars) ∨
    (dropsChar c s.crawl.hold = false ∧ s.moving = true ∧ c.passed s.leftCol = true ∧
      s.isTail = false ∧ placeChar c s =
        (s.count .lateChars).onCrawl (fun k => { k with hold := insertChar c k.hold })) ∨
    (dropsChar c s.crawl.hold = false ∧ (s.moving = false ∨ c.passed s.leftCol = false) ∧
      placeChar c s = s.onCrawl (fun k => { k with hold := insertChar c k.hold })) := by
  unfold placeChar
  cases hd : dropsChar c s.crawl.hold <;> cases hm : s.moving <;> cases hp : c.passed s.leftCol <;>
    cases ht : s.isTail <;> simp

end Sys2Proof.Machine
end

