-- ==== Sys2Proof/Laws/Line.lean ====
section
/-!
SUPPORT. The line interface's and the frame handler's shared operations: what a handled frame, a broken
frame, a failed attempt, a byte read back by its sender, the disposal of a frame and the end of a dispatch
can do.
-/
namespace Sys2Proof.Machine

/-- R192 to R194: all the handling of a frame can do. -/
theorem handled_cases (c : MsgClass) (f : Frame) (listed : Bool) (effect : Option (State → State))
    (s : State) :
    (s.offers c f = false ∧ handled c f listed effect s = s) ∨
    (s.offers c f = true ∧ listed = false ∧ handled c f listed effect s = freeSlot s) ∨
    (s.offers c f = true ∧ listed = true ∧ effect = none ∧
      handled c f listed effect s = freeSlot (s.count .framesDiscarded)) ∨
    (∃ g, s.offers c f = true ∧ listed = true ∧ effect = some g ∧
      handled c f listed effect s = g (beginDispatch s)) := by
  unfold handled
  cases s.offers c f <;> cases listed <;> cases effect <;> simp

/-- R192: when the frame handler can take a frame. -/
theorem offers_iff (c : MsgClass) (f : Frame) (s : State) :
    s.offers c f = true ↔ s.line.dispatching = false ∧ s.line.slots.head? = some ⟨c, f⟩ := by
  simp [State.offers]

theorem beginDispatch_eq (s : State) : beginDispatch s = s.dispatched := rfl

theorem freeSlot_eq (s : State) : freeSlot s = s.slotFreed := rfl

/-- R192: all the end of a dispatch can do. -/
theorem dispatchEnd_cases (s : State) :
    (s.line.dispatching = false ∧ dispatchEnd s = s) ∨
    (s.line.dispatching = true ∧ dispatchEnd s = s.slotFreed) := by
  unfold dispatchEnd
  cases h : s.line.dispatching
  · exact .inl ⟨rfl, if_neg (by simp)⟩
  · exact .inr ⟨rfl, if_pos rfl⟩

/-- R179: all the breaking of a frame can do. -/
theorem breakFrame_cases (next : AsmState) (s : State) :
    (ownOriginRead s = true ∧ breakFrame next s = s.onLine (Line.turnTo next)) ∨
    (ownOriginRead s = false ∧
      breakFrame next s = (s.count .framesDiscarded).onLine (Line.turnTo next)) := by
  unfold breakFrame
  cases ownOriginRead s <;> simp

/-- R188: all a failed attempt can do to the queue whose head is on the line. -/
theorem failedQueue_cases (q : List TxFrame) :
    (q = [] ∧ failedQueue q = [] ∧ abandonsHead q = false) ∨
    (∃ f fs, q = f :: fs ∧ f.retries < 15 ∧ abandonsHead q = false ∧
      failedQueue q = { f with retries := f.retries + 1 } :: fs) ∨
    (∃ f fs, q = f :: fs ∧ 15 ≤ f.retries ∧ abandonsHead q = true ∧ failedQueue q = fs) := by
  cases q with
  | nil => exact .inl ⟨rfl, rfl, rfl⟩
  | cons f fs =>
    by_cases h : f.retries < 15
    · refine .inr (.inl ⟨f, fs, rfl, h, ?_, ?_⟩)
      · simp [abandonsHead, Config.attemptLimit]; omega
      · rw [failedQueue, if_pos (by simp only [Config.attemptLimit]; omega)]
    · refine .inr (.inr ⟨f, fs, rfl, by omega, ?_, ?_⟩)
      · simp [abandonsHead, Config.attemptLimit]; omega
      · rw [failedQueue, if_neg (by simp only [Config.attemptLimit]; omega)]

/-- R188: a failed attempt lengthens neither queue. -/
theorem failedQueue_length (q : List TxFrame) : (failedQueue q).length ≤ q.length := by
  rcases failedQueue_cases q with ⟨h, h', -⟩ | ⟨f, fs, h, -, -, h'⟩ | ⟨f, fs, h, -, -, h'⟩ <;>
    rw [h', h] <;> simp

/-- R188: all a failed attempt can do: the line interface's queues and sending mark change, and the
abandoned frames' tally. -/
theorem failAttempt_cases (q : QueueId) (s : State) :
    (abandonsHead (s.line.queue q) = false ∧
      failAttempt q s = offLine (s.onQueue q failedQueue)) ∨
    (abandonsHead (s.line.queue q) = true ∧
      failAttempt q s = offLine ((s.count .framesAbandoned).onQueue q failedQueue)) := by
  unfold failAttempt
  cases abandonsHead (s.line.queue q) <;> simp

/-- R185, R187: all a byte read back can do at its sender: nothing, a step of the attempt, or its loss. -/
theorem senderReads_cases (levels : LineLevels) (s : State) :
    senderReads levels s = s ∨
    (∃ x, s.line.sending = some x ∧ x.inHold = false ∧ senderReads levels s = loseAttempt x.queue s) ∨
    (∃ x, s.line.sending = some x ∧ x.inHold = false ∧
      senderReads levels s = s.onSending (fun y => { y with sent := y.sent + 1 })) ∨
    (∃ x, s.line.sending = some x ∧ x.inHold = true ∧
      (senderReads levels s = s.onSending (fun y => { y with holdOver := true }) ∨
        senderReads levels s = s.onSending (fun y => { y with held := y.held + 1 }))) := by
  unfold senderReads
  split
  · exact .inl rfl
  · rename_i x hx
    split
    · exact .inl rfl
    · unfold readBack readHoldBack
      cases hh : x.inHold
      · simp only [Bool.false_eq_true, if_false]
        split
        · exact .inr (.inl ⟨x, hx, hh, rfl⟩)
        · exact .inr (.inr (.inl ⟨x, hx, hh, rfl⟩))
      · simp only [if_true]
        split
        · exact .inr (.inr (.inr ⟨x, hx, hh, .inl rfl⟩))
        · exact .inr (.inr (.inr ⟨x, hx, hh, .inr rfl⟩))

/-- R188: all FRAME_ABANDONED can do: nothing, or the 16th failure as a loss or as a hold-out. -/
theorem abandonFrame_cases (s : State) :
    abandonFrame s = s ∨
    (∃ x, s.line.sending = some x ∧ abandonsHead (s.line.queue x.queue) = true ∧
      ((x.canLose = true ∧ abandonFrame s = loseAttempt x.queue s) ∨
        (x.heldOut = true ∧ abandonFrame s = failAttempt x.queue s))) := by
  unfold abandonFrame
  split
  · rename_i x hx
    split
    · rename_i ha
      split
      · exact .inr ⟨x, hx, ha, .inl ⟨‹_›, rfl⟩⟩
      · split
        · exact .inr ⟨x, hx, ha, .inr ⟨‹_›, rfl⟩⟩
        · exact .inl rfl
    · exact .inl rfl
  · exact .inl rfl

/-- R166, R167, R189: all the suppression at a completion can do: frames leave the general queue. -/
theorem suppressBy_cases (f : Frame) (s : State) :
    suppressBy f s = s ∨
    ∃ m, readAnswer f = some m ∧
      suppressBy f s = s.withdraw (TxFrame.isAnswerTo f.dest m.terminal m.tag) := by
  unfold suppressBy
  split
  · rename_i m hm
    exact .inr ⟨m, hm, rfl⟩
  · exact .inl rfl

/-- R181, R191: all the disposal of a good frame can do. -/
theorem disposeGood_cases (x : Completed) (s : State) :
    disposeGood x s = s ∨ disposeGood x s = s.count .framesDiscarded ∨
    (∃ c, classOf x.cls = some c ∧ slotFree s = true ∧ s.concerns x.frame.dest = true ∧
      disposeGood x s = placeInSlot ⟨c, x.frame⟩ s) ∨
    (classOf x.cls = some .answer ∧ slotFree s = true ∧ s.concerns x.frame.dest = false ∧
      disposeGood x s = placeInSlot ⟨.answer, x.frame⟩ (suppressBy x.frame s)) := by
  unfold disposeGood
  split
  · exact .inr (.inl rfl)
  · rename_i c hc
    split
    · rename_i hd
      split
      · exact .inr (.inr (.inl ⟨c, hc, ‹_›, hd, rfl⟩))
      · exact .inr (.inl rfl)
    · rename_i hd
      split
      · rename_i h
        obtain ⟨rfl, -, -, hf⟩ := h
        exact .inr (.inr (.inr ⟨hc, hf, by simpa using hd, rfl⟩))
      · exact .inl rfl

/-- R176: a false start changes nothing. -/
theorem byteReceived_falseStart {levels : LineLevels} (h : falseStart levels = true) (s : State) :
    byteReceived levels s = s := if_pos h

/-- R176: what a byte with a good start bit does, part by part. -/
theorem byteReceived_eq {levels : LineLevels} (h : falseStart levels = false) (s : State) :
    byteReceived levels s = receiverReads levels (senderReads levels (byteOnLine s)) :=
  if_neg (by simp [h])

/-- R176: the ten levels of a byte: a dominant start bit, the data bits least significant first, a
recessive stop bit. -/
theorem getLsbD_lineLevels (b : Byte) (i : Nat) :
    (lineLevels b).getLsbD i =
      if i = 0 then false else if i < 9 then b.getLsbD (i - 1) else decide (i = 9) := by
  show (1#1 ++ b ++ 0#1 : BitVec (1 + 8 + 1)).getLsbD i = _
  rw [BitVec.getLsbD_append]
  by_cases h0 : i = 0
  · simp [h0]
  · rw [if_neg (by omega : ¬i < 1), BitVec.getLsbD_append, if_neg h0]
    by_cases h9 : i < 9
    · rw [if_pos (by omega : i - 1 < 8), if_pos h9]
    · rw [if_neg (by omega : ¬i - 1 < 8), if_neg h9, BitVec.getLsbD_one]
      simp only [Nat.zero_lt_one, decide_true, Bool.true_and]
      exact decide_eq_decide.2 (by omega)

@[simp] theorem falseStart_lineLevels (b : Byte) : falseStart (lineLevels b) = false :=
  getLsbD_lineLevels b 0

@[simp] theorem stopGood_lineLevels (b : Byte) : stopGood (lineLevels b) = true :=
  getLsbD_lineLevels b 9

@[simp] theorem dataByte_lineLevels (b : Byte) : dataByte (lineLevels b) = b := by
  apply BitVec.eq_of_getLsbD_eq
  intro i hi
  rw [dataByte, BitVec.getLsbD_extractLsb', getLsbD_lineLevels]
  rw [if_neg (by omega), if_pos (by omega), Nat.add_sub_cancel_left]
  simp [hi]

/-- R185: a byte read back as it was sent loses nothing. -/
@[simp] theorem overridden_lineLevels (b : Byte) : overridden b (lineLevels b) = false := by
  simp [overridden]

/-- The command of ten levels carries them whole. -/
@[simp] theorem levelsCommand_levels (levels : LineLevels) :
    (levels.extractLsb' 9 1 ++ levels.setWidth 9 : LineLevels) = levels := by
  apply BitVec.eq_of_getLsbD_eq
  intro i hi
  show (levels.extractLsb' 9 1 ++ levels.setWidth 9 : BitVec (1 + 9)).getLsbD i = levels.getLsbD i
  rw [BitVec.getLsbD_append, BitVec.getLsbD_setWidth, BitVec.getLsbD_extractLsb']
  by_cases h : i < 9
  · simp [h]
  · have : i = 9 := by omega
    simp [this]

end Sys2Proof.Machine
end

