-- ==== Sys2Proof/Laws/Terminals.lean ====
section
/-!
SUPPORT. A key at a terminal that can take it is taken at once, and what a taken key leaves alone.
-/
namespace Sys2Proof.Machine

theorem withdraw_term (s : State) (p : TxFrame → Bool) (u : Fin 4) :
    (s.withdraw p).term u = s.term u := rfl

theorem endAsk_term_keyQueue (t : Fin 4) (s : State) :
    ((endAsk t s).term t).keyQueue = (s.term t).keyQueue := by
  unfold endAsk
  split <;> simp [withdraw_term]

/-- A taken key adds nothing to the key queue of its terminal. -/
theorem takeKey_keyQueue_nil (t : Fin 4) (k : Key) {s : State} (h : (s.term t).keyQueue = []) :
    ((takeKey t k s).term t).keyQueue = [] := by
  unfold takeKey keyOrAcknowledge
  split
  · simpa [Terminal.hush] using h
  · unfold keyByState
    split
    · unfold keyIdle
      split <;> simp [Terminal.hush, h]
    · unfold keyKeying
      split
      · split <;> simp [rejectBeep, Terminal.beep, Terminal.hush, h]
      · simp [Terminal.rubLetter, Terminal.hush, h]
      · simp [Terminal.hush, h]
      · unfold quoteEntry
        split
        · simp [showEntry, beginShowing, Terminal.hush, h]
        · split
          · simp [Terminal.say, Terminal.hush, h]
          · split
            · simp [Terminal.say, Terminal.hush, h]
            · simp [openAsk, Terminal.hush, h]
      · simp [rejectBeep, Terminal.beep, Terminal.hush, h]
    · split
      · simp [abandonAsk, Terminal.dropAsk]
      · simp [Terminal.hush, h]
    · unfold keyShowing
      split
      · unfold stopShowing
        split <;> simp [releaseRecord, Terminal.hush, h]
      · unfold stopShowing
        split <;> simp [releaseRecord, Terminal.hush, h]
      · simp [Terminal.hush, h]
      · unfold watchShown
        split
        · simp [rejectBeep, Terminal.beep, Terminal.hush, h]
        · split <;> simp [rejectBeep, addWatch, Terminal.beep, Terminal.hush, h]
      · unfold unwatchShown
        split <;> simp [rejectBeep, releaseRecord, Terminal.beep, Terminal.hush, h]
      · unfold nextShown
        split
        · simp [rejectBeep, Terminal.beep, Terminal.hush, h]
        · split <;> simp [beginShowing, releaseRecord, Terminal.hush, h]
      · simp [Terminal.hush, h]
      · simp [rejectBeep, Terminal.beep, Terminal.hush, h]
    · unfold keyLimitEntry
      split
      · unfold limitDigit
        repeat' split
        all_goals simp [rejectBeep, Terminal.beep, Terminal.hush, h]
      · split <;> simp [rejectBeep, Terminal.beep, Terminal.hush, h]
      · unfold limitRub
        repeat' split
        all_goals simp [rejectBeep, Terminal.beep, Terminal.hush, h]
      · unfold limitQuote
        split
        · unfold commitLimit
          repeat' split
          all_goals simp [rejectBeep, addWatch, Terminal.leaveLimit, Terminal.arm, Terminal.beep,
            Terminal.hush, h]
        · simp [rejectBeep, Terminal.beep, Terminal.hush, h]
      · simp [Terminal.leaveLimit, Terminal.hush, h]
      · simp [rejectBeep, Terminal.beep, Terminal.hush, h]
    · simp [Terminal.hush, h]
    · simp [Terminal.hush, h]

/-- An empty queue has nothing to take. -/
theorem drainKeys_nil (t : Fin 4) (n : Nat) {s : State} (h : (s.term t).keyQueue = []) :
    drainKeys t n s = s := by
  cases n with
  | zero => rfl
  | succ n =>
    unfold drainKeys
    rw [h]
    cases (s.term t).state <;> rfl

/-- R139: a key at a terminal that can take keys acts at once, as takeKey says. -/
theorem offerKey_of_takesKeys {t : Fin 4} {s : State} (k : Key) (h : takesKeys t s) :
    offerKey t k s = takeKey t k s := by
  obtain ⟨-, ha, hs, hq⟩ := h
  have hput : (enqueueKey t k s).onTerm t (fun m => { m with keyQueue := [] }) = s := by
    unfold enqueueKey
    rw [State.onTerm_onTerm]
    apply State.onTerm_of_eq
    simp [← hq]
  have hst : ((enqueueKey t k s).term t).state = (s.term t).state := by simp [enqueueKey]
  have hkq : ((enqueueKey t k s).term t).keyQueue = [k] := by simp [enqueueKey, hq]
  have hd : drainKeys t 4 (enqueueKey t k s) = drainKeys t 3 (takeKey t k s) := by
    rw [show (4 : Nat) = 3 + 1 from rfl, drainKeys]
    rw [hkq, hst]
    have hkey : drainKeys t 3 (takeKey t k
        ((enqueueKey t k s).onTerm t (fun m => { m with keyQueue := [] }))) =
        drainKeys t 3 (takeKey t k s) := by rw [hput]
    cases hc : (s.term t).state <;> first | exact hkey | exact absurd hc hs
  unfold offerKey
  rw [if_pos ha, if_neg (by simp [hq, Config.keyQueueSize]), if_neg hs]
  rw [Config.keyQueueSize, hd]
  exact drainKeys_nil t 3 (takeKey_keyQueue_nil t k hq)

end Sys2Proof.Machine
end

