-- ==== Sys2Proof/WellFormed.lean ====
section
/-!
DEFINITION. Which commands a sender can give: what the types of `Instr` leave to be checked.
An ill-formed command is still given a meaning by exec (its frame is refused, its position has no
switch); the check says which commands the floor and the matrix can produce.
-/
namespace Sys2Proof

/-- A frame the line can deliver: LEN is 0 to 32 (R178, R181). -/
def Frame.wellFormed (f : Frame) : Bool :=
  decide (f.body.length ≤ 32)

/-- Positions 44 to 47 of a matrix have no switch and always read up (R210). -/
def hasSwitch (pos : Fin 48) : Bool :=
  decide (pos.val < 44)

/-- The well-formed commands. -/
def Instr.wellFormed : Instr → Bool
  | .resetAssert => true
  | .powerOnReset _ => true
  | .floorTick => true
  | .patternEnd _ => true
  | .refreshFrame r0 r1 r2 r3 =>
      decide (r0.toNat < 2 ^ 44 ∧ r1.toNat < 2 ^ 44 ∧ r2.toNat < 2 ^ 44 ∧ r3.toNat < 2 ^ 44)
  | .debounceChange _ pos => hasSwitch pos
  | .letterKey _ _ => true
  | .digitKey _ _ => true
  | .quoteKey _ => true
  | .clearKey _ => true
  | .rubKey _ => true
  | .watchKey _ => true
  | .unwatchKey _ => true
  | .nextKey _ => true
  | .limitKey _ => true
  | .fractionKey _ => true
  | .beeperExpiry _ => true
  | .messageExpiry _ => true
  | .warmUpPhase => true
  | .lineSilenceTimeout => true
  | .crawlStep => true
  | .pendingPaceQueued => true
  | .print f => f.wellFormed
  | .quote f => f.wellFormed
  | .status f => f.wellFormed
  | .cancel f => f.wellFormed
  | .plan f => f.wellFormed
  | .dayStart f => f.wellFormed
  | .ask f => f.wellFormed
  | .answer f => f.wellFormed
  | .answerSnoop f => f.wellFormed
  | .handoff f => f.wellFormed
  | .pace f => f.wellFormed
  | .tallyQuery f => f.wellFormed
  | .tally f => f.wellFormed
  | .printTake => true
  | .cancelTake => true
  | .statusTake => true
  | .idleTimerExpiry => true
  | .idleDecay => true
  | .silenceCoasting => true
  | .silenceWaiting => true
  | .askTimeout _ => true
  | .byteReceived _ _ => true
  | .lineQuiet => true
  | .attemptStart => true
  | .arbitrationLoss => true
  | .holdByte => true
  | .holdOut => true
  | .frameAbandoned => true
  | .attemptComplete => true
  | .frameComplete => true
  | .dispatchEnd => true

end Sys2Proof
end

