-- ==== Sys2Proof/Tests/Slice0.lean ====
section
/-!
SUPPORT. Tests: the checks of WellFormed on ill-formed terms; the spec's worked examples and tables,
as written out there; and for every statement with hypotheses a concrete state and operands that meet
them.
-/
namespace Sys2Proof.Tests

open Sys2Proof Sys2Proof.Machine

/-! ### Helpers -/

/-- The state an outcome goes on from. -/
def after : Host.Outcome State Fault Refusal → State
  | .next s => s
  | .fault r => nomatch r
  | .refused _ => State.reset

/-- The state after one command. -/
def ran (c : Instr) (s : State) : State := after (exec c s)

/-- A symbol by its character codes. -/
def sym (a b c d : Nat) : Symbol :=
  ⟨BitVec.ofNat 6 a, BitVec.ofNat 6 b, BitVec.ofNat 6 c, BitVec.ofNat 6 d⟩

/-- "DEF ", "KLM ", "VWX " and "GM  ". -/
def dfs : Symbol := sym 4 5 6 0
def klm : Symbol := sym 11 12 13 0
def vwx : Symbol := sym 22 23 24 0
def gms : Symbol := sym 7 13 0 0

/-- Station 14 with a board and four terminals, no ribbon. -/
def desk : State := powerOnReset ⟨14, 1, 0, 0, 0, 0, 4, 1, 3⟩ State.reset
/-- Station 9, the head of ribbon 0, 96 columns wide. -/
def head : State := powerOnReset ⟨9, 1, 1, 0, 0, 2, 2, 1, 3⟩ State.reset
/-- Station 31, segment 1 of ribbon 2, 72 columns wide, waiting. -/
def waiting : State := powerOnReset ⟨31, 1, 3, 1, 0, 1, 1, 1, 3⟩ State.reset
/-- The tail of ribbon 2 at segment 2, waiting. -/
def waitingTail : State := powerOnReset ⟨32, 1, 3, 2, 1, 1, 1, 1, 3⟩ State.reset

/-- A moving segment at step count t with offset 96. -/
def moved (t : Nat) (s : State) : State :=
  s.onCrawl (fun c => { c with segState := .running, stepCount := BitVec.ofNat 24 t,
                               offset := some 96, paceHeard := true, silence := some 0 })

/-- Station 31, RUNNING at step count t. -/
def running (t : Nat) : State := moved t waiting
/-- The tail, RUNNING at step count t. -/
def runningTail (t : Nat) : State := moved t waitingTail

/-- The record of "GM  " in the examples: last 71⅛, PLUS, reference 69¾, bid 71, ask 71¼. -/
def gm : QuoteRecord :=
  { QuoteRecord.fresh gms with
    reference := some 558, last := some ⟨569, 25, .plus⟩, bid := some 568, ask := some 570, age := 40 }

/-- Station 14 holding "GM  " on cell 3. -/
def planned : State :=
  (desk.withTable [{ gm with pins := [3] }]).withCells
    (desk.cells.map (fun c => if c.number = 3 then { c with link := some gms } else c))

/-- Terminal 0 of a state changed. -/
def at0 (f : Terminal → Terminal) (s : State) : State := s.onTerm 0 f

/-- Terminal 0 showing "GM  ", with a watch list. -/
def showingGm (w : List WatchEntry) : State :=
  at0 (fun m => { m with state := .showing, shown := some gms, watch := w })
    (planned.withTable [{ gm with pins := [3], refs := 1 + w.length }])

/-- Terminal 0 in LIMIT ENTRY on "GM  ". -/
def limiting (whole : List (Fin 10)) (mark : Bool) (e : Option (Fin 8)) (w : List WatchEntry) : State :=
  at0 (fun m => { m with state := .limitEntry, whole := whole, fracMark := mark, eighths := e })
    (showingGm w)

/-- Terminal 0 in KEYING with an entry. -/
def keying (e : List (Fin 26)) (s : State) : State :=
  at0 (fun m => { m with state := .keying, entry := e }) s

/-- Terminal 0 in ASKING for "VWX " with tag 41, due at tick 16, and the keys that wait. -/
def asking (ks : List Key) (s : State) : State :=
  at0 (fun m => { m with state := .asking, entry := [21, 22, 23], keyQueue := ks,
                         ask := some ⟨41, vwx, 16⟩ }) s

/-- A watch entry with no limit. -/
def plain (y : Symbol) : WatchEntry := ⟨y, none⟩

/-- Six watch entries. -/
def six : List WatchEntry :=
  [plain dfs, plain klm, plain vwx, plain (sym 1 0 0 0), plain (sym 2 0 0 0), plain (sym 3 0 0 0)]

/-- An alert. -/
def alert : Alert := ⟨klm, 569, .above⟩

/-- A queued Ask of no terminal used here. -/
def filler : TxFrame := ⟨0, .ask 3 200 dfs, 0⟩

/-- A state with a general queue and a tape queue. -/
def queued (general tape : List TxFrame) (s : State) : State :=
  s.onLine (fun l => { l with generalQueue := general, tapeQueue := tape })

/-- A state whose line has been quiet. -/
def quietLine (n : Nat) (s : State) : State := s.onLine (fun l => { l with quiet := n })

/-- The Pace frame of chapter 11, from station 9. -/
def paceBytes : Frame := ⟨0, 9, [0x00, 0x01, 0x01, 0x00, 0x50, 0x00]⟩

/-- A state with that frame on the line: bytes sent, hold bytes held, and whether HOLD is past. -/
def onAir (q : QueueId) (sent held : Nat) (past : Bool) (s : State) : State :=
  s.onLine (fun l => { l with sending := some ⟨q, .pace, paceBytes, sent, held, past⟩ })

/-- A state whose oldest receive slot holds a frame. -/
def arrived (c : MsgClass) (f : Frame) (s : State) : State :=
  s.onLine (fun l => { l with slots := [⟨c, f⟩] })

/-- The state after the dispatch of a frame from the oldest slot. -/
def took (c : MsgClass) (f : Frame) (s : State) : State := ran (messageCommand c f) (arrived c f s)

/-- A Print of "GM  " from station 1 as its bytes: serial 501, ribbon 0, then kind, price and lots. -/
def printGm (kind price lots : Nat) : Frame :=
  ⟨0, 1, [0xF5, 0x01, 0x01, BitVec.ofNat 8 kind, 7, 13, 0, 0, BitVec.ofNat 8 price,
    BitVec.ofNat 8 (price / 256), BitVec.ofNat 8 lots, BitVec.ofNat 8 (lots / 256)]⟩

/-- A Cancel of print 1/501 of "GM  " for ribbon 0, 569 and 25 lots. -/
def cancelGm : Frame := ⟨0, 1, [1, 0xF5, 0x01, 0x01, 7, 13, 0, 0, 0x39, 0x02, 25, 0]⟩

/-- A Status of "GM  " for ribbon 0. -/
def statusGm (st : Nat) : Frame := ⟨0, 1, [7, 13, 0, 0, 1, BitVec.ofNat 8 st]⟩

/-- A Plan for a cell. -/
def planFrame (dest cell : Nat) (y : List Byte) (ref : Nat) : Frame :=
  ⟨BitVec.ofNat 8 dest, 1,
    BitVec.ofNat 8 cell :: y ++ [BitVec.ofNat 8 ref, BitVec.ofNat 8 (ref / 256)]⟩

/-- The Answer of chapter 8 to terminal 0: reference 400, last 412 PLUS with 3 lots, bid 406, ask
410, OPEN, tag 41. -/
def answerVwx (dest : Nat) : Frame :=
  ⟨BitVec.ofNat 8 dest, 22, [0, 41, 22, 23, 24, 0, 0x0F, 0x90, 0x01, 0x9C, 0x01, 1, 3, 0, 0x96, 0x01,
    0x9A, 0x01, 0]⟩

/-- A Handoff of one character "A" of index 700 at an entry column, with an offset. -/
def handoffA (dest offset entry : Nat) : Frame :=
  ⟨BitVec.ofNat 8 dest, 9, [BitVec.ofNat 8 offset, BitVec.ofNat 8 (offset / 256), 1, 0xBC, 0x02, 0,
    BitVec.ofNat 8 entry, BitVec.ofNat 8 (entry / 256), BitVec.ofNat 8 (entry / 65536), 1, 0]⟩

/-- A Pace of a ribbon at level 1. -/
def paceFrame (ribbon steps : Nat) : Frame :=
  ⟨0, 9, [BitVec.ofNat 8 ribbon, 1, 1, BitVec.ofNat 8 steps, BitVec.ofNat 8 (steps / 256),
    BitVec.ofNat 8 (steps / 65536)]⟩

/-- A tape character "A", not sent. -/
def tapeA (index entry : Nat) : TapeChar :=
  ⟨BitVec.ofNat 24 index, BitVec.ofNat 24 entry, 1, .normal, false⟩

/-- A print item of "DEF " at 569, 25 lots, of print 1/serial. -/
def item (serial : Nat) (arrival : Nat) : TapeItem :=
  .print dfs 569 25 .regular ⟨1, BitVec.ofNat 16 serial⟩ (BitVec.ofNat 16 arrival)

/-- Items with serials 0 to n − 1. -/
def items (n : Nat) : List TapeItem := (List.range n).map (fun k => item k 0)

/-- The head with a print queue. -/
def withItems (q : List TapeItem) : State :=
  head.onComposer (fun c => { c with printQueue := q, idleTimer := if q = [] then some 0 else none })

/-- A state with a frame in assembly. -/
def assembling (a : Assembly) (s : State) : State :=
  s.onLine (fun l => { l with assembler := .assembling, assembly := a })

/-- A state with a completed frame. -/
def completed (x : Completed) (s : State) : State :=
  s.onLine (fun l => { l with completed := some x })

/-- A slot that holds a Day Start. -/
def slot : RxSlot := ⟨.dayStart, ⟨0, 1, []⟩⟩

/-- A state with receive slots in use. -/
def slotted (n : Nat) (s : State) : State :=
  s.onLine (fun l => { l with slots := List.replicate n slot })

/-! ### WellFormed refuses each ill-formed term -/

/-- A frame with a body of 33 bytes. -/
def longFrame : Frame := ⟨0, 1, List.replicate 33 0⟩

theorem test_wellFormed_messages_refused :
    ([.print longFrame, .quote longFrame, .status longFrame, .cancel longFrame, .plan longFrame,
      .dayStart longFrame, .ask longFrame, .answer longFrame, .answerSnoop longFrame,
      .handoff longFrame, .pace longFrame, .tallyQuery longFrame, .tally longFrame] :
      List Instr).any Instr.wellFormed = false := by decide

theorem test_wellFormed_frame_kept : Instr.wellFormed (.tally ⟨0, 1, List.replicate 32 0⟩) = true := by
  decide

theorem test_wellFormed_matrix_refused :
    ([.refreshFrame (2 ^ 44) 0 0 0, .refreshFrame 0 (2 ^ 44) 0 0, .refreshFrame 0 0 (2 ^ 44) 0,
      .refreshFrame 0 0 0 (2 ^ 44)] : List Instr).any Instr.wellFormed = false := by decide

theorem test_wellFormed_position_refused :
    Instr.wellFormed (.debounceChange 0 44) = false ∧ Instr.wellFormed (.debounceChange 0 43) = true := by
  decide

/-! ### The state after reset, the straps (10, worked examples) -/

/-- With every strap pin at 0 the release of the pin gives State.reset. -/
theorem test_powerOnReset_reset :
    powerOnReset ⟨0, 0, 0, 0, 0, 0, 0, 0, 0⟩ State.reset = State.reset := by decide

/-- Station 47 of the example. -/
theorem test_powerOnReset_straps :
    (powerOnReset ⟨47, 1, 2, 2, 0, 1, 6, 1, 2⟩ State.reset).straps =
      ⟨some 47, 2, some 1, 2, false, 72, 4, true, 3072⟩ := by decide

/-- Its effective budget at the release is 768 and its segment waits. -/
theorem test_powerOnReset_segment :
    (powerOnReset ⟨47, 1, 2, 2, 0, 1, 6, 1, 2⟩ State.reset).lamps.effective = 768 ∧
    (powerOnReset ⟨47, 1, 2, 2, 0, 1, 6, 1, 2⟩ State.reset).crawl.segState = .waiting := by decide

/-- A head's first mark is queued at T = 0. -/
theorem test_powerOnReset_headPace : head.line.generalQueue = [⟨0, .pace 0, 0⟩] := by decide

theorem test_resetAssert_lamp : (ran .resetAssert (desk.withSilence 0 false)).faultLamp = true := by
  decide

/-! ### Prices, ticks and changes (01, worked examples) -/

theorem test_price_lamps :
    ([3, 8, 569, 800, 7104, 8044, 16000, 32767].map (fun p => (priceLamps p).count true)) =
      [7, 2, 6, 14, 21, 6, 6, 12] := by decide

theorem test_tick_run :
    [newTick 569 none, newTick 569 (some ⟨569, 1, .noTick⟩), newTick 570 (some ⟨569, 1, .noTick⟩),
      newTick 570 (some ⟨570, 1, .plus⟩), newTick 570 (some ⟨570, 1, .zeroPlus⟩),
      newTick 568 (some ⟨570, 1, .zeroPlus⟩), newTick 568 (some ⟨568, 1, .minus⟩),
      newTick 572 (some ⟨568, 1, .zeroMinus⟩)] =
    [.noTick, .noTick, .plus, .zeroPlus, .zeroPlus, .minus, .zeroMinus, .plus] := by decide

theorem test_change_lamps :
    ([some 11, some (-11), some 3, some 16, some 80, some (-7200), some 0, none].map
      (fun c => (changeLamps c).count true)) = [4, 4, 2, 6, 9, 14, 1, 0] := by decide

theorem test_change_text :
    changeText (some 11) = [0, 0, 46, 28, 39] ∧ changeText (some 3) = [0, 0, 0, 46, 39] ∧
    changeText (some 80) = [0, 46, 28, 27, 0] ∧ changeText (some (-7200)) = [0, 45, 36, 36, 43] := by
  decide

theorem test_price_text :
    priceText 3 = [0, 0, 0, 27, 39] ∧ priceText 80 = [0, 0, 28, 27, 0] ∧
    priceText 32767 = [31, 27, 36, 32, 43] := by decide

/-- Line 1 of "GM  ": GM␣␣␣␣␣71⅛␣+␣␣␣␣+1⅜␣. -/
theorem test_line1 :
    line1 (showingGm []) ((showingGm []).term 0) =
      [7, 13, 0, 0, 0, 0, 0, 34, 28, 37, 0, 46, 0, 0, 0, 0, 46, 28, 39, 0] := by decide

/-- Line 2 of "GM  ": B␣␣71␣␣A␣␣71¼. -/
theorem test_line2 :
    line2 (showingGm []) ((showingGm []).term 0) =
      [2, 0, 0, 34, 28, 0, 0, 1, 0, 0, 34, 28, 38, 0, 0, 0, 0, 0, 0, 0] := by decide

/-! ### The quote table and the cells (02, 03, worked examples) -/

/-- Units of the cell conditions that chapter 3 tables. -/
def cellUnits (r : QuoteRecord) (c : CellRecord) : Nat :=
  boardUnits [cellImage [r] { c with link := some r.symbol }]

/-- A cell at rest. -/
def cell0 : CellRecord := CellRecord.atReset 0

theorem test_cell_units :
    cellUnits (QuoteRecord.fresh gms) cell0 = 24 ∧
    cellUnits { QuoteRecord.fresh gms with reference := some 8044 } cell0 = 63 ∧
    cellUnits gm cell0 = 165 ∧
    cellUnits { gm with state := .halted } { cell0 with pattern := .halt, position := 1 } = 180 ∧
    cellUnits { gm with state := .halted } { cell0 with pattern := .halt, position := 6 } = 75 := by
  decide

theorem test_cell_units_faded :
    cellUnits { QuoteRecord.fresh gms with last := some ⟨304, 1, .noTick⟩, state := .closed,
                                           suspect := true } cell0 = 111 ∧
    cellUnits { gm with last := some ⟨16000, 1, .plus⟩, reference := some 15980, age := 200 } cell0 =
      197 := by decide

/-- A REGULAR print at 577 of the planned "GM  ": last, tick, prior; RISE on its cell. -/
theorem test_print_record :
    ((took .print (printGm 0 577 4) planned).table.map
      (fun r => (r.last, r.prior, r.setter, r.age))) =
      [(some ⟨577, 4, .plus⟩, some ⟨569, 25, .plus⟩, some ⟨1, 501⟩, 0)] ∧
    (took .print (printGm 0 577 4) planned).cells.map CellRecord.pattern =
      List.replicate 3 .steady ++ .rise :: List.replicate 12 .steady := by decide

/-- A LATE print changes nothing in the record. -/
theorem test_print_late : (took .print (printGm 2 540 2) planned).table = planned.table := by decide

theorem test_quote : (took .quote ⟨0, 1, [7, 13, 0, 0, 0, 0, 0x3A, 0x02]⟩ planned).table.map
    (fun r => (r.bid, r.ask)) = [(none, some 570)] := by decide

/-- HALTED loads HALT from its first bit at the next tick. -/
theorem test_status : ((took .status (statusGm 1) planned).cell 3).map
    (fun c => (c.pattern, c.position)) = some (.halt, 0) := by decide

/-- A matching Cancel restores the last from the prior; the last-setter becomes absent. -/
theorem test_cancel :
    ((took .cancel cancelGm (planned.withTable [{ gm with
      setter := some ⟨1, 501⟩, prior := some ⟨560, 12, .noTick⟩ }])).table.map
      (fun r => (r.last, r.prior, r.setter))) = [(some ⟨560, 12, .noTick⟩, none, none)] := by decide

/-- With no prior it sets suspect. -/
theorem test_cancel_suspect :
    ((took .cancel cancelGm (planned.withTable [{ gm with setter := some ⟨1, 501⟩ }])).table.map
      (fun r => (r.last, r.suspect))) = [(some ⟨569, 25, .plus⟩, true)] := by decide

/-- The eviction example: of the four records at the back, the least recent unpinned one goes. -/
theorem test_evict :
    (evict [QuoteRecord.fresh (sym 1 2 24 0), { QuoteRecord.fresh dfs with pins := [5] },
      { QuoteRecord.fresh (sym 7 8 10 0) with refs := 1 }, QuoteRecord.fresh (sym 13 14 15 0)]).map
        QuoteRecord.symbol = [sym 1 2 24 0, dfs, sym 7 8 10 0] := by decide

theorem test_plan :
    (took .plan (planFrame 14 9 [19, 20, 21, 0] 800) desk).table.map
      (fun r => (r.symbol, r.reference, r.pins)) = [(sym 19 20 21 0, some 800, [9])] := by decide

/-- Cell number 16 is refused and counted. -/
theorem test_plan_refused :
    (took .plan (planFrame 14 16 [19, 20, 21, 0] 800) desk).tallies.framesDiscarded = 1 := by decide

/-- RISE: dark, lit, dark at positions 1, 2, 3; FALL dark, dark, lit; HALT five lit, five dark. -/
theorem test_stencils :
    [1, 2, 3].map (fun n => ({ cell0 with pattern := .rise, position := n } : CellRecord).lit) =
      [false, true, false] ∧
    [1, 2, 3].map (fun n => ({ cell0 with pattern := .fall, position := n } : CellRecord).lit) =
      [false, false, true] ∧
    [1, 5, 6, 10].map (fun n => ({ cell0 with pattern := .halt, position := n } : CellRecord).lit) =
      [true, true, false, false] := by decide

/-- A shift past HALT's tenth bit reloads it at its first. -/
theorem test_patternEnd_repeats :
    ((ran (.patternEnd 0) (desk.withCells
      [{ cell0 with pattern := .halt, position := 10, repeats := true }])).cells.map
        CellRecord.position) = [1] := by decide

/-- The fades of chapter 3. -/
theorem test_fade : [100, 136, 236, 336, 436].map (cellLevel .opened) = [15, 15, 12, 9, 8] := by decide

/-! ### The tape (04, worked examples) -/

theorem test_print_texts :
    ([0, 1, 2, 3].map (fun f => (printText f dfs 569 25 .regular).length)) = [12, 11, 8, 8] ∧
    ([0, 1, 2].map (fun f => (printText f (sym 16 17 18 0) 304 60 .opening).length)) = [15, 14, 14] ∧
    ([0, 1].map (fun f => (printText f (sym 23 24 25 26) 32767 12000 .regular).length)) = [17, 14] := by
  decide

/-- AB␣⅝␣SLD␣␣. -/
theorem test_print_text_late :
    (printText 2 (sym 1 2 0 0) 5 1 .late).map Prod.fst = [1, 2, 0, 41, 0, 19, 12, 4, 0, 0] := by decide

/-- CXL␣DEF␣25S71⅛␣␣. -/
theorem test_cancel_text :
    (cancelText dfs 569 25).map Prod.fst =
      [3, 24, 12, 0, 4, 5, 6, 0, 29, 32, 19, 34, 28, 37, 0, 0] := by decide

/-- The entry columns of one take at T = 1000: eight characters from 1010, the next column 1058. -/
theorem test_printTake_columns :
    (fun s : State => ((s.crawl.hold.drop 2).map (fun c => c.entry.toNat), s.composer.nextIndex.toNat,
        s.composer.nextEntry.map BitVec.toNat))
      (ran .printTake (((withItems [.print (sym 11 0 0 0) 80 2 .regular ⟨1, 7⟩ 0]).onComposer
        (fun c => { c with nextIndex := 500, nextEntry := some 1010 })).onCrawl
        (fun c => { c with stepCount := 1000, hold := [tapeA 498 998, tapeA 499 1004] }))) =
      ([1010, 1016, 1022, 1028, 1034, 1040, 1046, 1052], 508, some 1058) := by decide

/-- Step 2 of the fast market: 20 s late at level 0, the notice left out, a set of 34. -/
theorem test_printTake_set :
    (fun x : PrintSet => (x.level, x.overflow, x.chars.length))
      (printSet 1200 1040 { Composer.atReset with overflow := true } (sym 1 2 3 4) 563 1200 .late) =
      (1, false, 34) := by decide

/-- Step 6: raised to level 3, the print is omitted as a repeat and only the notice is composed. -/
theorem test_printTake_repeat :
    (fun x : PrintSet => (x.level, x.omitted, x.chars.length))
      (printSet 1800 1318 { Composer.atReset with level := 2, recent := [(dfs, 569)] } dfs 569 10
        .regular) = (3, true, 17) := by decide

/-- Steps 10 and 11: the level lowered, by its notices. -/
theorem test_printTake_lower :
    (printSet 2600 2360 { Composer.atReset with level := 3 } vwx 812 3 .regular).chars.length = 25 ∧
    (printSet 2700 2620 { Composer.atReset with level := 2 } (sym 8 10 0 0) 96 1 .regular).chars.length
      = 22 := by decide

/-- Step 12: the decay to level 0 composes FULL TAPE. -/
theorem test_idleDecay :
    (fun s : State => (s.composer.level, s.crawl.hold.length, s.crawl.staged))
      (ran .idleDecay (head.onComposer (fun c => { c with level := 1, idleTimer := some 128 }))) =
      (0, 11, some 1920) := by decide

theorem test_cancelTake :
    (ran .cancelTake (withItems [.cancel dfs 569 25])).crawl.hold.length = 16 := by decide

/-- WXYZ␣HALTED␣␣. -/
theorem test_statusTake :
    (ran .statusTake (withItems [.status (sym 23 24 25 26) .halted])).crawl.hold.length = 13 := by
  decide

/-! ### The crawl (05, worked examples) -/

/-- Event 1: a late character of index 700 is counted, queued with offset 168, and removed. -/
theorem test_handoff_late :
    (fun s : State => (s.tallies.lateChars, s.crawl.hold, s.line.tapeQueue))
      (took .handoff (handoffA 0xA1 96 4826) (running 5000)) =
      (1, [], [⟨0xA2, .handoff 168 700 [⟨4826, 1, .normal⟩], 0⟩]) := by decide

/-- Event 4: a character 4 columns above its predecessor is dropped as disorder. -/
theorem test_handoff_disorder :
    (took .handoff (handoffA 0xA1 96 4884)
      ((running 5003).onCrawl (fun c => { c with hold := [tapeA 699 4880] }))).tallies.charsDropped =
      1 := by decide

/-- Event 5: index 710 is not held, so the batch is 708 and 709 alone. -/
theorem test_due_batch :
    ((dueBatch ((running 5018).onCrawl (fun c => { c with
      hold := [tapeA 708 4874, tapeA 709 4880, tapeA 711 4892] }))).map (fun c => c.index.toNat)) =
      [708, 709] ∧
    dueBatch ((running 5017).onCrawl (fun c => { c with hold := [tapeA 708 4874] })) = [] := by decide

/-- d = +5: the slew is 5; d = −1: the dead band; d = +66: a jump. -/
theorem test_pace_slew :
    (took .pace (paceFrame 2 20480) (running 20475)).crawl.slew = 5 ∧
    (took .pace (paceFrame 2 20745) (running 20746)).crawl.slew = 0 := by decide

theorem test_pace_jump :
    (fun s : State => (s.crawl.stepCount.toNat, s.tallies.paceJumps))
      (took .pace (paceFrame 2 22016) (running 21950)) = (22016, 1) := by decide

/-- R96: a Pace taken during a slew starts the phase again at 0, in the dead band too. -/
theorem test_pace_phase :
    (took .pace (paceFrame 2 20745)
      ((running 20746).onCrawl (fun c => { c with slew := 7, phase := 3 }))).crawl.phase = 0 := by decide

/-- Four steps of a slew of +5 advance 5 columns. -/
theorem test_crawlStep_slew :
    (fun c : Crawl => (c.stepCount.toNat, c.slew))
      ({ (running 20475).crawl with slew := 5 }.advance.advance.advance.advance) = (20480, 4) := by
  decide

/-- Four steps of a slew of −3 advance 3 columns. -/
theorem test_crawlStep_slew_back :
    (fun c : Crawl => (c.stepCount.toNat, c.slew))
      ({ (running 20739).crawl with slew := -3 }.advance.advance.advance.advance) = (20742, -2) := by
  decide

/-! ### The budget (06, worked examples) -/

theorem test_allocation :
    ([(3000, 3500), (600, 2000), (1500, 3072), (0, 5000), (5000, 0), (0, 0)].map (fun d =>
      (ribbonAllowance 4096 d.1, ribbonGrant 4096 d.1 d.2, boardAllowance 4096 d.1 d.2))) =
      [(3072, 3072, 1024), (3496, 2000, 2096), (3072, 3072, 1024), (4096, 4096, 0), (3072, 0, 4096),
       (4096, 0, 4096)] := by decide

theorem test_scaling :
    scaled 3072 3500 12 = 10 ∧ scaled 3072 3500 15 = 13 ∧ scaled 1024 3000 15 = 5 ∧
    scaled 1024 3000 8 = 2 ∧ scaled 3072 3072 12 = 12 := by decide

/-- A partly visible "B" is charged in full, and not at all one step later. -/
theorem test_partly_visible :
    ribbonDemand none [some ⟨812, 2, .notice, 5⟩, some ⟨813, 34, .normal, 0⟩] = 300 + 120 ∧
    ribbonDemand none [some ⟨813, 34, .normal, 0⟩] = 120 := by decide

theorem test_warmUpPhase :
    ([10, 40, 64].map (fun n => (ran .warmUpPhase
      (desk.withLamps { desk.lamps with warmUp := n })).lamps.effective)) = [1024, 2048, 4096] := by
  decide

/-! ### Terminals (07, worked examples) -/

/-- Scans 1 to 3 of the example: A comes down at its third reading, S counts 1. -/
theorem test_debounce :
    (fun d : Debounce => (d.down, d.count))
      ((({ down := false, count := 0 } : Debounce).scan true).scan true |>.scan true) = (true, 0) ∧
    (fun d : Debounce => (d.down, d.count))
      ((({ down := false, count := 2 } : Debounce).scan false)) = (false, 0) := by decide

/-- Three keys set the ghost lock, two leave it, one clears it. -/
theorem test_ghostLock :
    [lockAfter false 2, lockAfter false 3, lockAfter true 2, lockAfter true 1] =
      [false, true, true, false] := by decide

theorem test_letterKey : ((ran (.letterKey 0 3) (keying [1] desk)).term 0).entry = [1, 3] := by decide

theorem test_letterKey_fifth :
    (fun m : Terminal => (m.entry, m.beeper)) ((ran (.letterKey 0 3) (keying [1, 2, 3, 4] desk)).term 0)
      = ([1, 2, 3, 4], 2) := by decide

theorem test_digitKey_notEighths :
    (fun m : Terminal => (m.eighths, m.beeper))
      ((ran (.digitKey 0 9) (limiting [7, 2] true none [])).term 0) = (none, 2) := by decide

/-- The limit of the example: 72 with FRACTION and 0 is 576, ABOVE the last of 569. -/
theorem test_quoteKey_limit :
    ((ran (.quoteKey 0) (limiting [7, 2] true (some 0) [])).term 0).watch =
      [⟨gms, some ⟨576, .above⟩⟩] := by decide

/-- The ask of chapter 8: tag 41, deadline 16 ticks on. -/
theorem test_quoteKey_ask :
    ((ran (.quoteKey 0) ((keying [21, 22, 23] desk).withAskTag 40)).term 0).ask =
      some ⟨41, vwx, 16⟩ := by decide

theorem test_rubKey : ((ran (.rubKey 0) (keying [1] desk)).term 0).state = .idle := by decide

theorem test_clearKey_alert :
    (fun m : Terminal => (m.alerts, m.state))
      ((ran (.clearKey 0) (at0 (fun m => { m with alerts := [alert] }) (asking [] desk))).term 0) =
      ([], .asking) := by decide

theorem test_fractionKey : ((ran (.fractionKey 0) (limiting [7] false none [])).term 0).fracMark = true :=
  by decide

theorem test_limitKey : ((ran (.limitKey 0) (showingGm [])).term 0).state = .limitEntry := by decide

theorem test_watchKey :
    (ran (.watchKey 0) (showingGm [])).table.map QuoteRecord.refs = [2] := by decide

theorem test_unwatchKey :
    ((ran (.unwatchKey 0) (showingGm [plain gms])).term 0).watch = [] := by decide

/-- NEXT after the last entry wraps to the first. -/
theorem test_nextKey : nextTarget vwx [plain dfs, plain klm, plain vwx] = some dfs := by decide

theorem test_beeperExpiry :
    ((ran (.beeperExpiry 0) (at0 (fun m => { m with beeperOn := true }) desk)).term 0).beeperOn = false :=
  by decide

/-- At its last tick a message ends. -/
theorem test_floorTick_message :
    (fun m : Terminal => (m.message, m.messageTimer))
      ((ran .floorTick (at0 (fun m => { m with message := some .noQuote, messageTimer := 1 }) desk)).term
        0) = (none, 0) := by decide

theorem test_messageExpiry :
    ((ran (.messageExpiry 0) (at0 (fun m => { m with message := some .noQuote, messageTimer := 0 })
      desk)).term 0).message = none := by decide

/-- The key code map: A first, LIMIT last, and no switch at position 44. -/
theorem test_keyOfCode : keyOfCode 0 = some (.letter 0) ∧ keyOfCode 43 = some .limit ∧
    keyOfCode 36 = some .fraction ∧ keyOfCode 44 = none := by decide

/-! ### Inquiry (08, worked examples) -/

/-- The prints of the watch example: 575 does not cross 576 ABOVE, 577 does; 560 crosses 560 BELOW. -/
theorem test_limit_crossed :
    [Limit.crossedBy 575 ⟨576, .above⟩, Limit.crossedBy 577 ⟨576, .above⟩,
      Limit.crossedBy 560 ⟨560, .below⟩] = [false, true, true] := by decide

/-- A fired alert at a full list drops the oldest, counted. -/
theorem test_print_alert_full :
    (fun s : State => ((s.term 0).alerts.map Alert.price, s.tallies.keysAlertsDropped))
      (took .print (printGm 0 577 4) (at0 (fun m => { m with
        alerts := [alert, alert, alert, { alert with price := 1 }] })
          (showingGm [⟨gms, some ⟨576, .above⟩⟩]))) = ([569, 569, 1, 577], 1) := by decide

theorem test_answer :
    (fun s : State => ((s.term 0).state, s.table.map (fun r => (r.last, r.reference, r.refs))))
      (took .answer (answerVwx 14) (asking [] desk)) =
      (.showing, [(some ⟨412, 3, .plus⟩, some 400, 1)]) := by decide

/-- The typeahead of the example: WATCH is taken after the Answer. -/
theorem test_answer_typeahead :
    ((took .answer (answerVwx 14) (asking [.watch] desk)).term 0).watch = [⟨vwx, none⟩] := by decide

theorem test_answerSnoop :
    (ran (.answerSnoop (answerVwx 14)) (arrived .answer (answerVwx 14)
      (queued [filler, ⟨14, .answer 0 41 vwx, 1⟩] [] waiting))).line.generalQueue = [filler] := by decide

/-- R167, R189: the winner's Answer withdraws the loser's at its completion, before any retry. -/
theorem test_frameComplete_suppresses :
    (ran .frameComplete (completed ⟨8, answerVwx 14, checkByte (answerVwx 14)⟩
      (queued [filler, ⟨14, .answer 0 41 vwx, 1⟩] [] waiting))).line.generalQueue = [filler] := by decide

theorem test_ask :
    (took .ask ⟨0, 22, [2, 41, 7, 13, 0, 0]⟩ planned).line.generalQueue =
      [⟨22, .answer 2 41 gms, 0⟩] := by decide

theorem test_askTimeout :
    (fun s : State => ((s.term 0).message, s.tallies.asksTimedOut))
      (ran (.askTimeout 0) ((asking [] desk).withTickCount 16)) = (some .noQuote, 1) := by decide

/-! ### The line (09, 11) -/

/-- The code words of R207. -/
theorem test_code_words :
    classNumbers.map codeWord = [0x00, 0x17, 0x2B, 0x3C, 0x4D, 0x5A, 0x66, 0x71, 0x8E, 0x99, 0xA5, 0xB2,
      0xC3, 0xD4, 0xE8, 0xFF] := by decide

theorem test_class_correction :
    decodeClass 0xA4 = some (10, true) ∧ decodeClass 0xF0 = none ∧ decodeClass 0x0F = none := by decide

/-- The frame of chapter 9: check byte DC and the escaped body byte. -/
theorem test_check_and_escape :
    checkByte ⟨0x0E, 0x01, [0xF0, 0x22]⟩ = 0xDC ∧
    wireBytes .print ⟨0x0E, 0x01, [0xF0, 0x22]⟩ =
      [0xF0, 0x17, 0x0E, 0x02, 0xFF, 0x01, 0xF0, 0x0F, 0x22, 0xDC] := by decide

/-- The Pace frame of chapter 11. -/
theorem test_pace_frame :
    stampedBody ((head.onCrawl (fun c => { c with stepCount := 20480, paceLevel := 1 })).onComposer
      (fun c => { c with level := 1 })) (.pace 0) = [0x00, 0x01, 0x01, 0x00, 0x50, 0x00] ∧
    wireBytes .pace ⟨0, 9, [0x00, 0x01, 0x01, 0x00, 0x50, 0x00]⟩ =
      [0xF0, 0xA5, 0x00, 0x06, 0xFF, 0x09, 0x00, 0x01, 0x01, 0x00, 0x50, 0x00, 0x9E] := by decide

/-- The bytes of a Pace frame leave the frame awaiting its disposal. -/
theorem test_byteReceived_frame :
    ([0xF0, 0xA5, 0x00, 0x06, 0xFF, 0x09, 0x00, 0x01, 0x01, 0x00, 0x50, 0x00, 0x9E].foldl
      (fun u b => ran (byteCommand b) u) (lineQuiet desk)).line.completed =
      some ⟨10, ⟨0, 9, [0x00, 0x01, 0x01, 0x00, 0x50, 0x00]⟩, 0x9E⟩ := by decide

theorem test_frameComplete :
    (fun s : State => (s.line.slots, s.tallies.goodFrames, s.lineSilence, s.faultLamp))
      (ran .frameComplete (completed ⟨10, ⟨0, 9, [0, 1, 1, 0, 0x50, 0]⟩, 0x9E⟩ desk)) =
      ([⟨.pace, ⟨0, 9, [0, 1, 1, 0, 0x50, 0]⟩⟩], 1, 0, false) := by decide

/-- A body read after a Print's own kinds: kind 3 is refused. -/
theorem test_print_refused :
    (took .print (printGm 3 569 25) planned).tallies.framesDiscarded = 1 := by decide

theorem test_tallyQuery :
    (fun s : State => (s.tallies.lateChars, s.line.generalQueue))
      (took .tallyQuery ⟨14, 1, [1]⟩ (desk.count .lateChars)) =
      (0, [⟨1, .tally 0 [0, 0, 0, 0, 0, 0, 0, 0, 1, 0, 0, 0], 0⟩]) := by decide

theorem test_tally : took .tally ⟨14, 1, []⟩ desk = desk := by decide

/-- R176: 0xA5 as ten levels, the start bit in bit 0: 0, then 1 0 1 0 0 1 0 1, then 1. -/
theorem test_line_levels : lineLevels 0xA5 = 0b1101001010#10 := by decide

/-- R176: a recessive start bit is no start; a dominant stop bit is a framing error. -/
theorem test_byteReceived_levels :
    ran (levelsCommand 0b1101001011#10) (lineQuiet desk) = lineQuiet desk ∧
    (ran (levelsCommand 0b0101001010#10) (assembling ⟨some 10, [0], false, false, false⟩ desk)).line.assembler =
      .skipping := by decide

/-- R179: F0 F0 while SKIPPING: the first was a SYNC, and the frame it begins has an escape pending. -/
theorem test_byteReceived_skipping :
    (fun l : Line => (l.assembler, l.assembly.escape))
      (ran (byteCommand 0xF0) (ran (byteCommand 0xF0) (desk.onLine (fun l => { l with
        assembler := .skipping })))).line = (.assembling, true) := by decide

/-- R178: station 9 drives its Pace frame byte by byte: SYNC first, its own number as ORIGIN. -/
theorem test_sender_bytes :
    ([0, 1, 2, 3].map (fun n => drivenByte (onAir .general n 0 false head))) =
      [some 0xF0, some 0xA5, some 0x00, some 0x06] ∧
    drivenByte (onAir .general 4 0 false head) = some 0xFF ∧
    drivenByte (onAir .general 4 1 true head) = some 0x09 := by decide

/-- R185: the Pace at 0 loses its third byte, DEST, to no one, and to a lower CLASS at its second. -/
theorem test_byteReceived_lost :
    (ran (byteCommand 0x17) (onAir .general 1 0 false (queued [filler] [] head))).line.sending = none ∧
    ((ran (byteCommand 0x00) (onAir .general 2 0 false (queued [filler] [] head))).line.sending.map
      Sending.sent) = some 3 := by decide

/-- R153, R210: a display line carries 40 codes, line 1 before line 2. -/
theorem test_displayCodes :
    (displayCodes (ran (.refreshFrame 0 0 0 0) (showingGm [])) 0).map
      (fun l => (l.take 2, (l.drop 20).take 1, l.length)) = some ([7, 13], [2], 40) := by
  decide

/-- R135: an inactive terminal's display line is not driven. -/
theorem test_displayCodes_inactive : displayCodes (ran (.refreshFrame 0 0 0 0) head) 3 = none := by
  decide

theorem test_arbitrationLoss :
    (fun s : State => (s.line.generalQueue.map TxFrame.retries, s.tallies.arbitrationLosses))
      (ran .arbitrationLoss (onAir .general 2 0 false (queued [filler] [] desk))) = ([1], 1) := by decide

theorem test_attemptComplete :
    (fun s : State => (s.line.generalQueue, s.line.ownFrameWait))
      (ran .attemptComplete (onAir .general 12 1 true (queued [filler] [] desk))) = ([], true) ∧
    (ran .attemptComplete (onAir .general 11 1 true (queued [filler] [] desk))).line.ownFrameWait = false
    := by decide

/-! ### The other commands, one step each -/

/-- R137, R139: the third reading down of A's position gives the letter A. -/
theorem test_debounceChange :
    ((ran (.debounceChange 0 0) (at0 (fun m => { m with debounce := m.debounce.set 0 ⟨false, 2⟩ })
      desk)).term 0).entry = [0] := by decide

/-- R110: a head's step to T = 256 queues a mark when none waits. -/
theorem test_crawlStep_pace :
    (ran .crawlStep (queued [] [] (head.onCrawl (fun c => { c with stepCount := 255 })))).line.generalQueue
      = [⟨0, .pace 0, 0⟩] := by decide

/-- R110: a pending request is met once the queue has room. -/
theorem test_pendingPaceQueued :
    (ran .pendingPaceQueued (queued [filler, filler, filler] []
      (head.onCrawl (fun c => { c with pendingPace := true })))).line.generalQueue.length = 4 := by decide

theorem test_silenceCoasting :
    ((ran .silenceCoasting ((running 5000).onCrawl (fun c => { c with silence := some 128 }))).crawl.segState)
      = .coasting := by decide

/-- R93: entering WAITING empties the hold. -/
theorem test_silenceWaiting :
    (fun c : Crawl => (c.segState, c.hold, c.silence))
      (ran .silenceWaiting ((running 5000).onCrawl (fun c => { c with
        segState := .coasting, silence := some 512, hold := [tapeA 1 4900] }))).crawl =
      (.waiting, [], none) := by decide

theorem test_idleTimerExpiry :
    (ran .idleTimerExpiry (head.onComposer (fun c => { c with idleTimer := some 128 }))).composer.idleTimer
      = some 0 := by decide

theorem test_lineSilenceTimeout :
    (ran .lineSilenceTimeout (desk.withSilence 80 false)).faultLamp = true := by decide

/-- R205: the 80th tick of silence lights the fault lamp. -/
theorem test_floorTick_silence :
    (ran .floorTick (desk.withSilence 79 false)).faultLamp = true ∧
    (ran .floorTick (desk.withSilence 78 false)).faultLamp = false := by decide

theorem test_lineQuiet : (ran .lineQuiet desk).line.assembler = .seeking := by decide

/-- R184: the tape queue's head goes first. -/
theorem test_attemptStart :
    (ran .attemptStart (quietLine 2 (queued [filler] [⟨0x81, .handoff 96 0 [], 0⟩] head))).line.sending.map
      (fun x => (x.queue, x.frame.dest, x.frame.origin)) = some (.tape, 0x81, 9) := by decide

/-- R177: after its own frame a station waits for 4 byte times. -/
theorem test_attemptStart_ownFrame :
    (ran .attemptStart (quietLine 2 (queued [filler] [] (desk.onLine (fun l => { l with
      ownFrameWait := true }))))).line.sending = none := by decide

/-- R186: both slots full, the hold byte of a frame for this station is held and counted. -/
theorem test_holdByte :
    (fun s : State => (s.line.holdDrive, s.tallies.holdsAsserted))
      (ran .holdByte (slotted 2 (assembling ⟨some 9, [14, 6], false, true, false⟩ desk))) = (true, 1) := by decide

/-- R187: 24 held hold bytes hold the attempt out; 23 do not. -/
theorem test_holdOut :
    (ran .holdOut (onAir .general 4 24 false (queued [filler] [] desk))).line.generalQueue.map TxFrame.retries = [1]
    ∧ (ran .holdOut (onAir .general 4 23 false (queued [filler] [] desk))).line.generalQueue = [filler] := by decide

/-- R185, R187, R188: the 16th failed attempt abandons the frame; a loss counts as one, a hold-out not. -/
theorem test_frameAbandoned :
    ([onAir .general 2 0 false, onAir .general 4 24 false].map (fun air =>
      (fun s : State => (s.line.generalQueue.length, s.tallies.framesAbandoned, s.tallies.arbitrationLosses))
        (ran .frameAbandoned (air (queued [{ filler with retries := 15 }] [] desk)))))
      = [(0, 1, 1), (0, 1, 0)] := by decide

/-- R185: a hold byte whose stop bit reads dominant is held, as is one read as 0x00; 0xFF ends HOLD. -/
theorem test_hold_read_back :
    ([0b0111111110#10, lineLevels 0, lineLevels 0xFF].map (fun levels =>
      (ran (levelsCommand levels) (onAir .general 4 3 false head)).line.sending.map
        (fun x => (x.held, x.holdOver)))) = [some (4, false), some (4, false), some (3, true)] := by decide

/-- R183: silence directly after LEN is counted; silence after a held hold byte is not. -/
theorem test_lineQuiet_hold :
    ([false, true].map (fun held =>
      (ran .lineQuiet (assembling ⟨some 10, [0, 6], false, true, held⟩ desk)).tallies.framesDiscarded))
      = [1, 0] := by decide

/-- R188: an attempt sent whole has not failed, nor has one in its hold section with 23 held. -/
theorem test_frameAbandoned_not_due :
    ([onAir .general 12 0 true, onAir .general 4 23 false].map (fun air =>
      (ran .frameAbandoned (air (queued [{ filler with retries := 15 }] [] desk))).line.generalQueue.length))
      = [1, 1] := by decide

/-- R192: a dispatch that goes on keeps its slot, the frame is not taken twice, and its end frees it. -/
theorem test_dispatchEnd :
    (took .tallyQuery ⟨14, 1, [0]⟩ desk).line.slots.length = 1 ∧
    ran (.tallyQuery ⟨14, 1, [0]⟩) (took .tallyQuery ⟨14, 1, [0]⟩ desk) = took .tallyQuery ⟨14, 1, [0]⟩ desk ∧
    (ran .dispatchEnd (took .tallyQuery ⟨14, 1, [0]⟩ desk)).line.slots = [] ∧
    (ran .dispatchEnd (slotted 2 desk)).line.slots.length = 2 := by decide

/-- R201: a Day Start to the station's own number empties the table. -/
theorem test_dayStart : (took .dayStart ⟨14, 1, []⟩ planned).table = [] := by decide

/-- R117, R125: the frame of a board with one cell at 11 lamps of level 15. -/
theorem test_refreshFrame :
    (ran (.refreshFrame 0 0 0 0) planned).lamps.result.map (fun r => (r.dB, r.dR, r.floor, r.allowR, r.allowB))
      = some (165, 0, 165, 859, 1024) := by decide

/-! ### Witnesses: the step and the invariants -/

/-- Commands waiting. -/
def given (c : Instr) (s : State) : State := s.withPending [c]

/-- The head one timer clock before a match. -/
def nearMatch : State := head.onCrawl (fun c => { c with counter := 1919 })

theorem witness_StepRunsFrontCommand :
    (given .floorTick desk).pending = [.floorTick] ∧
    (desk.withReset.pending = [] ∧ desk.withReset.resetAsserted = true) ∧
    (desk.pending = [] ∧ desk.resetAsserted = false ∧ desk.moving = false) ∧
    (head.pending = [] ∧ head.moving = true ∧
      (head.crawl.counter + 1) % 65536 ≠ head.crawl.period) ∧
    (nearMatch.pending = [] ∧ nearMatch.resetAsserted = false ∧ nearMatch.moving = true ∧
      (nearMatch.crawl.counter + 1) % 65536 = nearMatch.crawl.period) := by decide

theorem witness_EveryCommandCompletes :
    desk.withReset.resetAsserted = true ∧ Instr.floorTick ≠ .resetAssert ∧
    (∀ pins, Instr.floorTick ≠ .powerOnReset pins) :=
  ⟨by decide, by decide, fun _ h => nomatch h⟩

theorem witness_StrapsReadOnlyAtRelease :
    (∀ pins, Instr.floorTick ≠ .powerOnReset pins) ∧ ∃ t, exec .floorTick desk = .next t :=
  ⟨(fun _ h => nomatch h), _, rfl⟩

/-- Every queue and list at its size. -/
def brimming : State :=
  given (.print (printGm 0 570 4))
    ((queued (List.replicate 4 filler) (List.replicate 8 filler)
      ((withItems (items 64)).onCrawl (fun c => { c with
        hold := (List.range 48).map (fun k => tapeA k (6 * k)) }))).onLine (fun l => { l with
          slots := [⟨.print, printGm 0 570 4⟩, slot] }))

theorem witness_StepKeepsCapacity : withinCapacity brimming ∧ ∃ t, step brimming = .next t :=
  ⟨by unfold withinCapacity; decide, _, rfl⟩

/-- Terminal 0 in ASKING with four keys waiting, and a CLEAR to come. -/
def busy : State := given (.clearKey 0) (asking [.watch, .next, .quote, .rub] desk)

theorem witness_StepKeepsTerminalLaw : terminalsWellKept busy ∧ ∃ t, step busy = .next t :=
  ⟨by unfold terminalsWellKept Terminal.wellKept; decide, _, rfl⟩

/-- One tick before the fault lamp lights, a tally at its limit. -/
def nearSilence : State :=
  given .floorTick ((desk.withSilence 79 false).withTallies { Tallies.zero with goodFrames := 65535 })

theorem witness_StepKeepsCounts : countsInRange nearSilence ∧ ∃ t, step nearSilence = .next t :=
  ⟨⟨fun k => by cases k <;> decide, by decide, by decide⟩, _, rfl⟩

/-- Station 14 with "GM  " on cell 3 and a Plan of a symbol not held for that cell. -/
def replanned : State := given (.plan (planFrame 14 3 [19, 20, 21, 0] 800))
  (arrived .plan (planFrame 14 3 [19, 20, 21, 0] 800) planned)

theorem links_planned (c : Fin 16) (y : Symbol) (h : replanned.linkOf c = some y) : y = gms := by
  have e : ∀ c : Fin 16, replanned.linkOf c = none ∨ replanned.linkOf c = some gms := by decide
  rcases e c with e | e <;> rw [e] at h
  · exact absurd h (by simp)
  · exact (Option.some.inj h).symm

theorem witness_StepKeepsCellPins : pinsFollowLinks replanned ∧ ∃ t, step replanned = .next t :=
  ⟨⟨by unfold symbolsDistinct; decide, by unfold cellsNumbered; decide, by decide,
    fun c y h => by rw [links_planned c y h]; decide⟩, _, rfl⟩

/-- Terminal 0 shows and watches "GM  ", and will stop watching it. -/
def watching : State := given (.unwatchKey 0) (showingGm [plain gms])

theorem refs_watching (y : Symbol) (h : 0 < watching.refsOn y) : y = gms := by
  by_contra n
  have n' : gms ≠ y := fun e => n e.symm
  have e0 : (watching.term 0).shown = some gms := by decide
  have w0 : (watching.term 0).watch = [plain gms] := by decide
  have e1 : (watching.term 1).shown = none ∧ (watching.term 1).watch = [] := by decide
  have e2 : (watching.term 2).shown = none ∧ (watching.term 2).watch = [] := by decide
  have e3 : (watching.term 3).shown = none ∧ (watching.term 3).watch = [] := by decide
  simp [State.refsOn, Terminal.refsOn, e0, w0, e1, e2, e3, plain, n'] at h

theorem witness_StepKeepsTerminalRefs : refsFollowTerminals watching ∧ ∃ t, step watching = .next t :=
  ⟨⟨by unfold symbolsDistinct; decide, by unfold terminalsWellKept Terminal.wellKept; decide, by decide,
    fun y h => by rw [refs_watching y h]; decide, by decide, by decide⟩, _, rfl⟩

/-- The planned station with 63 records more, none pinned. -/
def crowded : State :=
  given (.plan (planFrame 14 5 [19, 20, 21, 0] 800))
    ((arrived .plan (planFrame 14 5 [19, 20, 21, 0] 800) planned).withTable
    ({ gm with pins := [3] } ::
      (List.range 63).map (fun k => QuoteRecord.fresh (sym 1 (1 + k / 8) (1 + k % 8) 0))))

theorem links_crowded (c : Fin 16) (y : Symbol) (h : crowded.linkOf c = some y) : y = gms := by
  have e : ∀ c : Fin 16, crowded.linkOf c = none ∨ crowded.linkOf c = some gms := by decide
  rcases e c with e | e <;> rw [e] at h
  · exact absurd h (by simp)
  · exact (Option.some.inj h).symm

theorem refs_crowded (y : Symbol) : crowded.refsOn y = 0 := by
  have e : ∀ t : Fin 4, (crowded.term t).shown = none ∧ (crowded.term t).watch = [] := by decide
  simp [State.refsOn, Terminal.refsOn, e]

theorem witness_StepKeepsTableSize : tableWithinSize crowded ∧ ∃ t, step crowded = .next t :=
  ⟨⟨by decide,
    ⟨by unfold symbolsDistinct; decide, by unfold cellsNumbered; decide, by decide,
      fun c y h => by rw [links_crowded c y h]; decide⟩,
    ⟨by unfold symbolsDistinct; decide, by unfold terminalsWellKept Terminal.wellKept; decide,
      fun r hr => by
        rw [refs_crowded]
        have z : ∀ r ∈ crowded.table, r.refs = 0 := by decide
        exact z r hr,
      fun y h => absurd h (by rw [refs_crowded]; decide), by decide, by decide⟩⟩, _, rfl⟩

/-- A segment with a Pace to come. -/
def following : State := given (.pace (paceFrame 2 20480))
  (arrived .pace (paceFrame 2 20480) (running 20475))

theorem witness_StepKeepsRoles : crawlByRole following ∧ ∃ t, step following = .next t :=
  ⟨by unfold crawlByRole; decide, _, rfl⟩

/-- A head about to take its one item. -/
def taking : State := given .printTake (withItems [item 1 0])

theorem witness_StepKeepsHeadLevels :
    taking.isHead = true ∧ headLevelsAgree taking ∧ ∃ t, step taking = .next t :=
  ⟨by decide, by unfold headLevelsAgree; decide, _, rfl⟩

/-- A latched frame with "GM  " on a cell, and the tick that ends the second warm-up phase. -/
def lit : State :=
  given .floorTick (planned.withLamps { planned.lamps with
    warmUp := 63, effective := 2048
    result := some (frameResult 2048 (boardImage planned) (windowImage planned)) })

theorem witness_StepKeepsLampsWithinBudget : lampsWithinBudget lit ∧ ∃ t, step lit = .next t :=
  ⟨⟨by decide, by decide, by decide, fun r h => by
      have e : lit.lamps.result = some (frameResult 2048 (boardImage planned) (windowImage planned)) :=
        rfl
      rw [e] at h
      rw [← Option.some.inj h]
      decide⟩, _, rfl⟩

/-- A listen-only station with a frame to come. -/
def listening : State := given (.print (printGm 0 570 4)) (arrived .print (printGm 0 570 4) State.reset)

theorem witness_StepKeepsListenOnlySilent :
    listening.listenOnly = true ∧ listenOnlySilent listening ∧ ∃ t, step listening = .next t :=
  ⟨by decide, by unfold listenOnlySilent; decide, _, rfl⟩

/-! ### Witnesses: the frame, the ticks, the pins -/

theorem witness_FrameDrawsWithinBudget : planned.resetAsserted = false := by decide

theorem witness_FrameAllocation :
    State.reset.resetAsserted = false ∧ lampsWithinBudget State.reset :=
  ⟨by decide, by decide, by decide, by decide, fun r h => absurd h (by simp [State.reset])⟩

theorem witness_DriveLevelsScaled :
    head.resetAsserted = false ∧ 0 < head.straps.width ∧ (windowImage head).getD 0 none = none ∧
    (windowImage (head.onCrawl (fun c => { c with stepCount := 95, hold := [tapeA 0 1] }))).getD 1 none =
      some ⟨0, 1, .normal, 0⟩ := by decide

theorem witness_RefreshFrameLatches :
    planned.resetAsserted = false ∧ planned.active 0 = true ∧ head.active 3 = false ∧
    (∀ t : Fin 4, keysAtScan 0 (planned.term t) = []) ∧
    keysAtScan 1 ((at0 (fun m => { m with debounce := m.debounce.set 0 ⟨false, 2⟩ }) planned).term 0) =
      [.letter 0] ∧
    lockAtScan 7 (planned.term 0) = true ∧ lockAtScan 3 (planned.term 0) = false := by decide

theorem witness_PowerOnStartsEveryBlock :
    desk.straps.ribbon = none ∧ head.isHead = true ∧
    (head.straps.ribbon = some 0 ∧ head.straps.segment = 0 ∧ head.listenOnly = false) ∧
    (waiting.straps.ribbon.isSome ∧ waiting.straps.segment ≠ 0) ∧ State.reset.listenOnly = true := by
  decide

/-- A head whose idle timer stands at n. -/
def idleAt (n level : Nat) : State :=
  head.onComposer (fun c => { c with idleTimer := some n, level := level })

theorem witness_FloorTickAdvances :
    desk.resetAsserted = false ∧ desk.isHead = false ∧
    ((idleAt 126 0).isHead = true ∧ (idleAt 126 0).composer.idleTimer = some 126) ∧
    ((idleAt 127 0).isHead = true ∧ (idleAt 127 0).composer.idleTimer = some 127) ∧
    (withItems [item 1 0]).composer.idleTimer = none ∧
    (∀ u : Fin 4, (desk.term u).ask = none) ∧
    (((asking [.watch] desk).withTickCount 15).term 0).ask = some ⟨41, vwx, 16⟩ ∧
    ((asking [.watch] desk).withTickCount 15).tickCount + 1 = 16 := by decide

theorem witness_ThresholdsActAlone : desk.resetAsserted = false := by decide

theorem witness_AskTimesOut :
    (asking [] desk).resetAsserted = false ∧
    ((asking [] desk).term 0).ask = some ⟨41, vwx, 16⟩ ∧
    ((asking [] desk).withTickCount 16).tickCount = 16 ∧
    ((asking [] desk).withTickCount 15).tickCount ≠ 16 := by decide

/-! ### Witnesses: keys -/

/-- Terminal 0 with one position's debounce state and ghost lock given. -/
def bouncing (pos : Nat) (d : Debounce) (lock : Bool) : State :=
  at0 (fun m => { m with debounce := m.debounce.set pos d, ghostLock := lock }) desk

theorem witness_DebounceChangeProducesKey :
    desk.resetAsserted = false ∧ desk.active 0 = true ∧ head.active 2 = false ∧
    ((bouncing 43 ⟨false, 2⟩ false).term 0).debounce[43]? = some ⟨false, 2⟩ ∧
    ((bouncing 43 ⟨false, 2⟩ false).term 0).ghostLock = false ∧ keyOfCode 43 = some .limit ∧
    ((bouncing 43 ⟨false, 2⟩ true).term 0).ghostLock = true ∧
    ((bouncing 0 ⟨true, 2⟩ false).term 0).debounce[0]? = some ⟨true, 2⟩ ∧
    ((bouncing 0 ⟨true, 1⟩ false).term 0).debounce[0]? = some ⟨true, 1⟩ := by decide

theorem witness_LetterAndRubKeys :
    (takesKeys 0 desk ∧ (desk.term 0).state = .idle) ∧
    (takesKeys 0 (keying [1, 2, 3] desk) ∧ ((keying [1, 2, 3] desk).term 0).state = .keying ∧
      ((keying [1, 2, 3] desk).term 0).entry.length < 4) ∧
    4 ≤ ((keying [1, 2, 3, 4] desk).term 0).entry.length ∧
    (takesKeys 0 (showingGm []) ∧ ((showingGm []).term 0).state = .showing ∧
      ((showingGm []).term 0).shown = some gms) ∧
    (takesKeys 0 (limiting [7] true (some 0) []) ∧
      ((limiting [7] true (some 0) []).term 0).state = .limitEntry ∧
      ((limiting [7] true (some 0) []).term 0).shown = some gms ∧
      ((limiting [7] true (some 0) []).term 0).eighths.isSome) ∧
    (((limiting [7] true none []).term 0).eighths = none ∧
      ((limiting [7] true none []).term 0).fracMark = true) ∧
    (((limiting [7] false none []).term 0).fracMark = false ∧
      ((limiting [7] false none []).term 0).whole ≠ []) ∧
    (((limiting [] false none []).term 0).whole = []) := by unfold takesKeys; decide

theorem witness_LimitEntryDigits :
    takesKeys 0 (limiting [7, 2, 0] false none []) ∧
    ((limiting [7, 2, 0] false none []).term 0).state = .limitEntry ∧
    ((limiting [7, 2, 0] false none []).term 0).shown = some gms ∧
    ((limiting [7, 2, 0] false none []).term 0).whole.length < 4 ∧
    4 ≤ ((limiting [7, 2, 0, 1] false none []).term 0).whole.length ∧
    (((limiting [7] true none []).term 0).fracMark = true ∧ (7 : Fin 10).val = (7 : Fin 8).val ∧
      8 ≤ (8 : Fin 10).val) ∧
    ((limiting [7] true (some 7) []).term 0).eighths.isSome := by unfold takesKeys; decide

theorem witness_QuoteInKeying :
    (takesKeys 0 (keying [6, 12] planned) ∧ ((keying [6, 12] planned).term 0).state = .keying ∧
      findRecord (entrySymbol ((keying [6, 12] planned).term 0).entry) planned.table =
        some { gm with pins := [3] }) ∧
    (takesKeys 0 (keying [1] { desk with straps := { desk.straps with station := none } }) ∧
      findRecord (entrySymbol [1]) desk.table = none) ∧
    (desk.listenOnly = false ∧
      4 ≤ (queued [filler, filler, filler, filler] [] desk).line.generalQueue.length) ∧
    (takesKeys 0 (keying [1] (queued [filler, filler, filler] [] desk)) ∧
      (queued [filler, filler, filler] [] desk).line.generalQueue.length < 4) := by
  unfold takesKeys; decide

theorem witness_QuoteCommitsLimit :
    (takesKeys 0 (limiting [7, 2] true (some 0) six) ∧
      ((limiting [7, 2] true (some 0) six).term 0).state = .limitEntry ∧
      ((limiting [7, 2] true (some 0) six).term 0).shown = some gms ∧
      findRecord gms (limiting [7, 2] true (some 0) six).table =
        some { gm with pins := [3], refs := 7 } ∧
      ((limiting [7, 2] true (some 0) six).term 0).limitValue = 576 ∧
      ((limiting [7, 2] true (some 0) six).term 0).watches gms = false ∧
      6 ≤ ((limiting [7, 2] true (some 0) six).term 0).watch.length) ∧
    ((limiting [0] false none []).term 0).limitValue = 0 ∧
    ((limiting [4, 0, 9, 5] true (some 7) []).term 0).limitValue = 32767 ∧
    ((limiting [4, 0, 9, 6] false none []).term 0).limitValue = 32768 ∧
    ((limiting [7, 1] true (some 1) []).term 0).limitValue = 569 ∧
    ((limiting [7, 2] false none [plain gms]).term 0).watches gms = true ∧
    (((limiting [7, 2] false none six.tail).term 0).watches gms = false ∧
      ((limiting [7, 2] false none six.tail).term 0).watch.length < 6) := by
  unfold takesKeys; decide

theorem witness_ClearKeyByState :
    (desk.resetAsserted = false ∧ desk.active 0 = true) ∧
    (((asking [.watch, .next, .rub] desk).term 0).state = .asking ∧
      ((asking [.watch, .next, .rub] desk).term 0).keyQueue.length < 4 ∧
      ((asking [.watch, .next, .rub] desk).term 0).alerts = [] ∧
      ((asking [.watch, .next, .rub] desk).term 0).ask = some ⟨41, vwx, 16⟩) ∧
    (((at0 (fun m => { m with alerts := [alert] }) desk).term 0).state ≠ .asking ∧
      ((at0 (fun m => { m with alerts := [alert] }) desk).term 0).keyQueue = [] ∧
      ((at0 (fun m => { m with alerts := [alert] }) desk).term 0).alerts ≠ []) ∧
    (((keying [1] desk).term 0).state = .keying ∧ ((keying [1] desk).term 0).alerts = []) ∧
    (((showingGm []).term 0).state = .showing ∧ ((showingGm []).term 0).shown = some gms ∧
      ((showingGm []).term 0).alerts = []) ∧
    (((limiting [] false none []).term 0).state = .limitEntry ∧
      ((limiting [] false none []).term 0).keyQueue = []) := by decide

theorem witness_WatchKeysInShowing :
    (takesKeys 0 (showingGm six) ∧ ((showingGm six).term 0).state = .showing ∧
      ((showingGm six).term 0).shown = some gms ∧ 6 ≤ ((showingGm six).term 0).watch.length ∧
      ((showingGm six).term 0).watches gms = false) ∧
    ((showingGm six.tail).term 0).watch.length < 6 ∧
    ((showingGm [plain gms]).term 0).watches gms = true := by unfold takesKeys; decide

/-- Terminal 0 showing "GM  " and watching "DEF ", which is held too. -/
def twoWatched : State :=
  (showingGm [plain gms, plain dfs]).withTable
    [{ gm with pins := [3], refs := 2 }, { QuoteRecord.fresh dfs with refs := 1 }]

theorem witness_NextAndLimitInShowing :
    (takesKeys 0 twoWatched ∧ (twoWatched.term 0).state = .showing ∧
      (twoWatched.term 0).shown = some gms) ∧
    ((showingGm []).term 0).watch = [] ∧
    ((twoWatched.term 0).watch = [] ++ plain gms :: [plain dfs] ∧ dfs ≠ gms ∧
      findRecord dfs twoWatched.table = some { QuoteRecord.fresh dfs with refs := 1 }) ∧
    ((showingGm six).term 0).watches gms = false ∧
    ((showingGm [plain gms]).term 0).watch = [plain gms] := by unfold takesKeys; decide

theorem witness_RefusedIgnoredAndQueuedKeys :
    (takesKeys 0 (keying [1] desk) ∧ refuses ((keying [1] desk).term 0).state .watch = true ∧
      ((keying [1] desk).term 0).state = .keying) ∧
    (takesKeys 0 (showingGm []) ∧ refuses ((showingGm []).term 0).state .rub = true ∧
      ((showingGm []).term 0).shown = some gms) ∧
    (takesKeys 0 desk ∧ (desk.term 0).state = .idle ∧ (∀ l, Key.clear ≠ .letter l) ∧
      (desk.term 0).alerts = []) ∧
    (desk.active 0 = true ∧ ((asking [.watch, .next, .rub] desk).term 0).state = .asking ∧
      ((asking [.watch, .next, .rub] desk).term 0).keyQueue.length < 4 ∧ Key.quote ≠ .clear) ∧
    4 ≤ ((asking [.watch, .next, .rub, .quote] desk).term 0).keyQueue.length ∧
    head.active 3 = false := by unfold takesKeys; decide

/-! ### Witnesses: messages -/

theorem witness_BodiesReadAsLaidOut :
    symbolAt (symbolBytes gms) 0 = some gms ∧ kindOf 2 = some .late ∧
    (gm.symbol = gms ∧ gm.reference = some 558 ∧ gm.bid = some 568 ∧ gm.ask = some 570 ∧
      gm.last = some ⟨569, 25, .plus⟩) := by decide

/-- R2, R4, R5: a valid price or 32768, kind 2 or 3, state 3 or 4. -/
theorem witness_bodyOk_print :
    bodyOk true .print (printGm 2 32767 0).body ∧ ¬bodyOk true .print (printGm 0 32768 25).body ∧
    ¬bodyOk true .print (printGm 3 569 25).body ∧ ¬bodyOk true .status (statusGm 4).body := by
  unfold bodyOk priceOk symbolOk
  dsimp only
  decide

/-- R35: cell number 15 or 16, and a station with no board. -/
theorem witness_bodyOk_plan :
    bodyOk true .plan (planFrame 14 15 [7, 13, 0, 0] 0).body ∧
    ¬bodyOk true .plan (planFrame 14 16 [7, 13, 0, 0] 0).body ∧
    ¬bodyOk false .plan (planFrame 14 15 [7, 13, 0, 0] 0).body := by
  unfold bodyOk symbolOk
  dsimp only
  decide

/-- R100, R111, R161, R203: ribbon 3 or 4, counts and lengths. -/
theorem witness_bodyOk_sent :
    bodyOk true .pace (paceFrame 3 0).body ∧ ¬bodyOk true .pace (paceFrame 4 0).body ∧
    bodyOk true .answer (answerVwx 14).body ∧ bodyOk true .handoff (handoffA 0xA1 96 4826).body ∧
    ¬bodyOk true .handoff [] ∧ bodyOk true .tallyQuery [0] ∧ ¬bodyOk true .tallyQuery [] := by
  unfold bodyOk priceOk symbolOk
  dsimp only
  decide

/-- A Print for the whole floor at station 14, a Plan for it and one for another, a Tally. -/
theorem witness_IgnoredAndRefusedFrames :
    (arrived .print (printGm 3 569 25) planned).canTake .print (printGm 3 569 25) ∧
    planned.listsFrame .print (printGm 3 569 25) ∧
    (arrived .plan (planFrame 14 16 [7, 13, 0, 0] 0) planned).canTake .plan
      (planFrame 14 16 [7, 13, 0, 0] 0) ∧
    planned.listsFrame .plan (planFrame 14 16 [7, 13, 0, 0] 0) ∧
    ¬planned.listsFrame .plan (planFrame 15 16 [7, 13, 0, 0] 0) ∧
    (arrived .tally ⟨14, 1, []⟩ planned).canTake .tally ⟨14, 1, []⟩ ∧
    ¬planned.listsFrame .tally ⟨14, 1, []⟩ ∧
    ¬planned.canTake .print (printGm 3 569 25) ∧
    (arrived .answer (answerVwx 22) planned).canTake .answer (answerVwx 22) ∧
    planned.isOtherStation 22 = true ∧ planned.isOtherStation 14 = false ∧
    (arrived .handoff (handoffA 0x80 96 0) head).canTake .handoff (handoffA 0x80 96 0) ∧
    head.listsFrame .handoff (handoffA 0x80 96 0) ∧ head.isHead = true := by
  unfold State.canTake State.listsFrame
  dsimp only
  decide

theorem witness_PrintUpdatesRecord :
    (arrived .print (printGm 0 570 4) planned).canTake .print (printGm 0 570 4) ∧ (printGm 0 570 4).dest = 0 ∧
    readPrint (printGm 0 570 4) = some ⟨⟨1, 501⟩, 1, .regular, gms, 570, 4⟩ ∧
    (readPrint (printGm 2 570 4)).map PrintMsg.kind = some .late ∧
    findRecord gms planned.table = some { gm with pins := [3] } ∧ findRecord gms desk.table = none ∧
    (newTick 570 gm.last = .plus ∧ newTick 568 gm.last = .minus ∧ newTick 569 gm.last = .zeroPlus) := by
  unfold State.canTake
  decide

theorem witness_PrintAdmittedToTape :
    (arrived .print (printGm 0 570 4) head).canTake .print (printGm 0 570 4) ∧
    (printGm 0 570 4).dest = 0 ∧
    readPrint (printGm 0 570 4) = some ⟨⟨1, 501⟩, 1, .regular, gms, 570, 4⟩ ∧ desk.isHead = false ∧
    (head.straps.ribbon = some 0 ∧ head.straps.segment = 0 ∧ (1 : Byte).getLsbD 0 = true ∧
      (2 : Byte).getLsbD 0 = false) ∧
    (withItems (items 63)).composer.printQueue.length < 64 ∧
    64 ≤ (withItems (items 64)).composer.printQueue.length := by
  unfold State.canTake
  decide

/-- Terminal 0 shows and watches "GM  " with a limit. -/
def armed (l : Limit) : State := showingGm [⟨gms, some l⟩]

theorem witness_PrintFiresLimits :
    (arrived .print (printGm 0 570 4) (armed ⟨570, .above⟩)).canTake .print (printGm 0 570 4) ∧
    (printGm 0 570 4).dest = 0 ∧
    readPrint (printGm 0 570 4) = some ⟨⟨1, 501⟩, 1, .regular, gms, 570, 4⟩ ∧
    findRecord gms (armed ⟨570, .above⟩).table = some { gm with pins := [3], refs := 2 } ∧
    (armed ⟨570, .above⟩).active 0 = true ∧
    ((armed ⟨570, .above⟩).term 0).armedLimit gms = some ⟨570, .above⟩ ∧
    ((armed ⟨571, .above⟩).term 0).armedLimit gms = some ⟨571, .above⟩ ∧
    ((armed ⟨570, .below⟩).term 0).armedLimit gms = some ⟨570, .below⟩ ∧
    ((armed ⟨570, .above⟩).term 1).armedLimit gms = none ∧
    (∀ u : Fin 4, ((armed ⟨570, .above⟩).term u).alerts.length < 4) := by
  unfold State.canTake
  decide

theorem witness_QuoteAndStatus :
    (arrived .quote ⟨0, 1, [7, 13, 0, 0, 0, 0, 0x3A, 0x02]⟩ planned).canTake .quote
      ⟨0, 1, [7, 13, 0, 0, 0, 0, 0x3A, 0x02]⟩ ∧
    (arrived .status (statusGm 1) head).canTake .status (statusGm 1) ∧
    readQuote ⟨0, 1, [7, 13, 0, 0, 0, 0, 0x3A, 0x02]⟩ = some ⟨gms, none, some 570⟩ ∧
    readStatus (statusGm 1) = some ⟨gms, 1, .halted⟩ ∧ readStatus (statusGm 0) = some ⟨gms, 1, .opened⟩ ∧
    findRecord gms head.table = none ∧ findRecord gms planned.table = some { gm with pins := [3] } ∧
    planned.isHead = false ∧ head.straps.ribbon = some 0 ∧ head.straps.segment = 0 ∧
    (1 : Byte).getLsbD 0 = true ∧ (2 : Byte).getLsbD 0 = false ∧
    (withItems (items 63)).composer.printQueue.length < 64 ∧
    64 ≤ (withItems (items 64)).composer.printQueue.length := by
  unfold State.canTake
  decide

theorem witness_CancelUndoesPrint :
    (arrived .cancel cancelGm head).canTake .cancel cancelGm ∧ cancelGm.dest = 0 ∧
    readCancel cancelGm = some ⟨⟨1, 501⟩, 1, gms, 569, 25⟩ ∧ desk.isHead = false ∧
    (head.straps.ribbon = some 0 ∧ head.straps.segment = 0 ∧ (1 : Byte).getLsbD 0 = true) ∧
    ((withItems [item 7 0, item 501 0, item 501 9]).composer.printQueue =
        [item 7 0] ++ item 501 0 :: [item 501 9] ∧
      (∀ j ∈ [item 7 0], j.isPrint ⟨1, 501⟩ = false) ∧ (item 501 0).isPrint ⟨1, 501⟩ = true) ∧
    (∀ j ∈ (withItems (items 63)).composer.printQueue, j.isPrint ⟨1, 501⟩ = false) ∧
    (withItems (items 63)).composer.printQueue.length < 64 ∧
    (∀ j ∈ (withItems (items 64)).composer.printQueue, j.isPrint ⟨1, 501⟩ = false) ∧
    64 ≤ (withItems (items 64)).composer.printQueue.length := by
  unfold State.canTake
  decide

theorem witness_PlanLinksCell :
    (arrived .plan (planFrame 14 3 [7, 13, 0, 0] 560) planned).canTake .plan
      (planFrame 14 3 [7, 13, 0, 0] 560) ∧ planned.isOwnNumber 14 = true ∧
    readPlan planned.straps.board (planFrame 14 3 [7, 13, 0, 0] 560) = some ⟨3, some gms, some 560⟩ ∧
    readPlan planned.straps.board (planFrame 14 3 [4, 5, 6, 0] 0) = some ⟨3, some dfs, none⟩ ∧
    readPlan planned.straps.board (planFrame 14 15 [0, 0, 0, 0] 0) = some ⟨15, none, none⟩ ∧
    planned.linkOf 3 = some gms ∧ planned.linkOf 15 = none ∧
    findRecord gms planned.table = some { gm with pins := [3] } ∧ findRecord dfs planned.table = none ∧
    dfs ≠ gms ∧ planned.table.length < 64 ∧ ¬crowded.table.length < 64 ∧
    ((QuoteRecord.fresh dfs).pins = [] ∧ (QuoteRecord.fresh dfs).refs = 0 ∧
      ∀ q ∈ [{ gm with pins := [3] }, { QuoteRecord.fresh klm with refs := 1 }],
        q.pins ≠ [] ∨ 0 < q.refs) := by
  unfold State.canTake
  decide

theorem witness_DayStartResetsBlocks :
    ((arrived .dayStart ⟨0, 1, []⟩ head).canTake .dayStart ⟨0, 1, []⟩ ∧
      (arrived .dayStart ⟨14, 1, []⟩ desk).canTake .dayStart ⟨14, 1, []⟩ ∧
      desk.isOwnNumber 14 = true) ∧
    (head.isHead = true ∧ head.crawl.segState = .running) ∧
    ((running 5000).isHead = false ∧ (running 5000).crawl.segState ≠ .dark) ∧
    desk.crawl.segState = .dark ∧ head.active 0 = true ∧ head.active 3 = false ∧
    (State.reset.listenOnly = true ∧ head.listenOnly = false) ∧
    (head.straps.ribbon = some 0 ∧ head.straps.segment = 0) := by
  unfold State.canTake
  decide

theorem witness_AskQueuesAnswer :
    (arrived .ask ⟨0, 22, [2, 41, 7, 13, 0, 0]⟩ planned).canTake .ask ⟨0, 22, [2, 41, 7, 13, 0, 0]⟩ ∧
    planned.isOwnNumber 22 = false ∧
    readAsk ⟨0, 22, [2, 41, 7, 13, 0, 0]⟩ = some ⟨2, 41, gms⟩ ∧
    answers gms planned = true ∧ answers gms desk = false ∧
    [(⟨22, .answer 2 41 gms, 0⟩ : TxFrame)].any (TxFrame.isAnswerTo 22 2 41) = true ∧
    ([filler, filler, filler].any (TxFrame.isAnswerTo 22 2 41) = false ∧
      (queued [filler, filler, filler] [] planned).line.generalQueue.length < 4) ∧
    ([filler, filler, filler, filler].any (TxFrame.isAnswerTo 22 2 41) = false ∧
      4 ≤ (queued [filler, filler, filler, filler] [] planned).line.generalQueue.length) := by
  unfold State.canTake
  decide

theorem witness_AnswerCompletesAsk :
    (arrived .answer (answerVwx 14) (asking [] desk)).canTake .answer (answerVwx 14) ∧ desk.isOwnNumber 14 = true ∧
    readAnswer (answerVwx 14) =
      some ⟨0, 41, vwx, some 400, some ⟨412, 3, .plus⟩, some 406, some 410, .opened⟩ ∧
    (desk.term 0).state ≠ .asking ∧
    (desk.active 0 = true ∧ ((asking [] desk).term 0).state = .asking ∧
      ((asking [] desk).term 0).ask = some ⟨41, vwx, 16⟩ ∧ ((asking [] desk).term 0).keyQueue = []) ∧
    findRecord vwx desk.table = none ∧
    findRecord vwx ((asking [] desk).withTable [QuoteRecord.fresh vwx]).table =
      some (QuoteRecord.fresh vwx) ∧
    (((asking [.watch, .next, .rub, .quote] desk).term 0).keyQueue = [.watch, .next, .rub, .quote] ∧
      ∀ k ∈ [Key.watch, .next, .rub, .quote], k ≠ .clear) := by
  unfold State.canTake
  decide

theorem witness_SnoopedAnswerSuppresses :
    (arrived .answer (answerVwx 14) waiting).canTake .answer (answerVwx 14) ∧ waiting.isOtherStation 14 = true ∧
    (readAnswer (answerVwx 14)).map AnswerMsg.tag = some 41 ∧
    (waiting.line.sending = none ∧
      (queued [filler, ⟨14, .answer 0 41 vwx, 1⟩] [] waiting).line.generalQueue =
        [filler] ++ ⟨14, .answer 0 41 vwx, 1⟩ :: [] ∧
      (⟨14, .answer 0 41 vwx, 1⟩ : TxFrame).isAnswerTo 14 0 41 = true ∧
      filler.isAnswerTo 14 0 41 = false) ∧
    (onAir .general 0 0 false (queued [filler] [] waiting)).sendingGeneral = true := by
  unfold State.canTake
  decide

theorem witness_TallyQueryReports :
    (arrived .tallyQuery ⟨14, 1, [1]⟩ desk).canTake .tallyQuery ⟨14, 1, [1]⟩ ∧ desk.isOwnNumber 14 = true ∧
    4 ≤ (queued [filler, filler, filler, filler] [] desk).line.generalQueue.length ∧
    (queued [filler, filler, filler] [] desk).line.generalQueue.length < 4 := by
  unfold State.canTake
  decide

/-! ### Witnesses: the crawl unit and the composer -/

/-- A segment with a slew and a phase. -/
def slewing (n : Int) (phase : Nat) : State :=
  (running 5000).onCrawl (fun c => { c with slew := n, phase := phase })

/-- Station 31 RUNNING at step count t with three unsent characters, of which two make a batch. -/
def draining (t : Nat) : State :=
  (running t).onCrawl (fun c => { c with hold := [tapeA 708 4874, tapeA 709 4880, tapeA 711 4892] })

/-- The batch due at 5018: 708 and 709, which index 710 ends. -/
theorem witness_isBatch :
    isBatch (draining 5018).leftCol (draining 5018).crawl.hold [tapeA 708 4874, tapeA 709 4880] := by
  refine ⟨[], [tapeA 711 4892], [tapeA 709 4880], tapeA 708 4874, rfl, rfl, by decide, by decide,
    by simp, fun i c h => ?_, fun _ c h => ?_⟩
  · match i with
    | 0 => simp at h; subst h; decide
    | 1 => simp at h; subst h; decide
    | n + 2 => simp at h
  · simp at h; subst h; decide

theorem witness_CrawlStepAdvances :
    (head.resetAsserted = false ∧ head.moving = true ∧ waiting.moving = false) ∧
    head.crawl.hold.length ≤ 48 ∧ brimming.crawl.hold.length ≤ 48 ∧
    (head.isHead = true ∧ (running 5000).crawl.slew = 0) ∧
    ((slewing 48 2).isHead = false ∧ (slewing 48 2).crawl.slew ≠ 0 ∧ (slewing 48 2).crawl.phase < 3) ∧
    (0 < (slewing 48 3).crawl.slew ∧ 3 ≤ (slewing 48 3).crawl.phase) ∧
    (slewing (-48) 3).crawl.slew < 0 ∧
    (∃ c, (draining 5018).crawl.hold.head? = some c ∧ c.sent = false ∧
      0 ≤ sdiff (c.entry + 5) (draining 5018).leftCol ∧ (draining 5018).isTail = false ∧
      (draining 5018).straps.ribbon = some 2) ∧
    (State.reset.listenOnly = true ∧ (runningTail 5000).isTail = true) ∧
    (head.straps.ribbon = some 0 ∧ head.straps.segment = 0 ∧ head.listenOnly = false ∧
      ((head.onCrawl (fun c => { c with stepCount := 255 })).crawl.stepCount + 1).toNat % 256 = 0 ∧
      (waitingFrames head.sendingGeneral [filler, filler, filler]).any TxFrame.isPace = false ∧
      [filler, filler, filler].length < 4) ∧
    ((head.onCrawl (fun c => { c with stepCount := 256 })).crawl.stepCount + 1).toNat % 256 ≠ 0 := by
  refine ⟨by decide, by decide, by decide, by decide, by decide, by decide, by decide,
    ⟨tapeA 708 4874, by decide⟩, by decide, by decide, by decide⟩

/-- A head whose request waits, with n other frames queued. -/
def pendingPace (n : Nat) : State :=
  (queued (List.replicate n filler) [] head).onCrawl (fun c => { c with pendingPace := true })

theorem witness_PendingPaceIsQueued :
    ((pendingPace 3).resetAsserted = false ∧ (pendingPace 3).straps.ribbon = some 0 ∧
      (pendingPace 3).crawl.pendingPace = true ∧ (pendingPace 3).line.generalQueue.length < 4) ∧
    4 ≤ (pendingPace 4).line.generalQueue.length ∧ head.crawl.pendingPace = false ∧
    desk.straps.ribbon = none := by decide

/-- A segment whose silence timer stands at n. -/
def silent (st : SegmentState) (n : Nat) : State :=
  (running 5000).onCrawl (fun c => { c with segState := st, silence := some n })

theorem witness_SilenceEndsRunning :
    (silent .running 128).resetAsserted = false ∧
    ((silent .running 128).crawl.silence = some 128 ∧ (silent .running 128).crawl.segState = .running) ∧
    ((silent .coasting 512).crawl.silence = some 512 ∧
      (silent .coasting 512).crawl.segState = .coasting) ∧
    waiting.crawl.silence = none ∧ (silent .running 127).crawl.silence = some 127 ∧
    (silent .running 126).crawl.silence = some 126 ∧ (silent .coasting 511).crawl.silence = some 511 ∧
    (silent .coasting 510).crawl.silence = some 510 := by decide

theorem witness_PlacementKeepsHoldLaw :
    holdLawful [tapeA 1 6, tapeA 3 18] ∧ [tapeA 1 6, tapeA 3 18].length ≤ 48 ∧
    dropsChar (tapeA 2 12) [tapeA 1 6, tapeA 3 18] = false ∧
    holdLawful ((List.range 47).map (fun k => tapeA k (6 * k))) ∧
    dropsChar (tapeA 47 282) ((List.range 47).map (fun k => tapeA k (6 * k))) = false := by
  refine ⟨by simp [holdLawful, neighbours]; decide, by decide, by decide, ?_, by decide⟩
  unfold holdLawful neighbours
  decide

/-- A Handoff in front of a segment that holds two characters. -/
def handing : State :=
  given (.handoff (handoffA 0xA1 96 4826)) (arrived .handoff (handoffA 0xA1 96 4826)
    ((running 5000).onCrawl (fun c => { c with hold := [tapeA 698 4814, tapeA 699 4820] })))

/-- A head with one character composed, and its next. -/
def composing : State :=
  given .printTake ((withItems [item 1 0]).onComposer (fun c => { c with
    nextIndex := 1, nextEntry := some 7 }) |>.onCrawl (fun c => { c with hold := [tapeA 0 1] }))

theorem witness_stepKeepsHoldLaw :
    (holdLawful handing.crawl.hold ∧ holdWithin 0 0 handing.crawl.hold ∧ handing.isHead = false ∧
      handing.pending = [.handoff (handoffA 0xA1 96 4826)] ∧
      readHandoff (handoffA 0xA1 96 4826) = some ⟨96, 700, [⟨4826, 1, .normal⟩]⟩ ∧
      ((700 + BitVec.ofNat 24 0 - 0 : Col)).toNat < 4194304 ∧ (4826 - 0 : Col).toNat < 4194304) ∧
    (holdLawful composing.crawl.hold ∧ holdWithin 0 0 composing.crawl.hold ∧ composing.isHead = true ∧
      composerFollows composing ∧ nextEntryNear composing) ∧
    (∃ t, step handing = .next t) ∧ ∃ t, step composing = .next t := by
  refine ⟨⟨?_, ?_, by decide, rfl, by decide, by decide, by decide⟩, ⟨?_, ?_, by decide, ?_, ?_⟩,
    ⟨_, rfl⟩, _, rfl⟩
  · unfold holdLawful neighbours; decide
  · unfold holdWithin; decide
  · unfold holdLawful neighbours; decide
  · unfold holdWithin; decide
  · intro c h
    have e : composing.crawl.hold.getLast? = some (tapeA 0 1) := by decide
    rw [e] at h
    rw [← Option.some.inj h]
    decide
  · intro e h
    have k : composing.composer.nextEntry = some 7 := by decide
    rw [k] at h
    rw [← Option.some.inj h]
    decide

theorem witness_HandoffPlacesCharacters :
    ((arrived .handoff (handoffA 0xA1 96 4826) waiting).canTake .handoff (handoffA 0xA1 96 4826) ∧
      waiting.isOwnSegment 0xA1 = true ∧ waiting.isHead = false ∧
      readHandoff (handoffA 0xA1 96 4826) = some ⟨96, 700, [⟨4826, 1, .normal⟩]⟩) ∧
    (waiting.crawl.segState = .waiting ∧ waiting.crawl.offset = none ∧
      waiting.crawl.paceHeard = false ∧
      (waiting.onCrawl (fun c => { c with paceHeard := true })).crawl.paceHeard = true) ∧
    ((running 5000).crawl.offset = some 96 ∧ (running 5000).crawl.offset ≠ some 97 ∧
      (running 5000).crawl.hold.length ≤ 48) ∧
    ((running 5000).moving = true ∧ waiting.moving = false ∧ (runningTail 5000).isTail = true ∧
      (running 5000).isTail = false ∧
      sdiff (4827 + 5) (runningTail 5000).leftCol = -1 ∧
      sdiff (4828 + 5) (runningTail 5000).leftCol = 0) := by
  unfold State.canTake
  decide

theorem witness_PaceCorrectsSteps :
    ((arrived .pace (paceFrame 2 1000) (running 1000)).canTake .pace (paceFrame 2 1000) ∧
      readPace (paceFrame 2 1000) = some ⟨2, 1, 1000⟩ ∧ (running 1000).straps.ribbon = some 2 ∧
      (running 1000).straps.segment ≠ 0 ∧ head.straps.segment = 0) ∧
    (waiting.crawl.segState = .waiting ∧ waiting.crawl.offset = none ∧
      (waiting.onCrawl (fun c => { c with offset := some 96 })).crawl.offset.isSome) ∧
    (running 1000).moving = true ∧
    ([999, 1000, 1001, 998, 1002, 952, 1048, 951, 1049].map (fun n =>
      sdiff (BitVec.ofNat 24 n) (running 1000).crawl.stepCount)) =
      [-1, 0, 1, -2, 2, -48, 48, -49, 49] := by
  unfold State.canTake
  decide

theorem witness_PrintTakeComposes :
    (withItems [item 1 0]).resetAsserted = false ∧ (withItems [item 1 0]).isHead = true ∧
    (withItems [item 1 0]).composer.printQueue = [.print dfs 569 25 .regular ⟨1, 1⟩ 0] ∧
    awaiting (withItems [item 1 0]) ≤ 2 ∧
    (withItems [item 1 0]).crawl.hold.length +
      (printSet 0 0 (withItems [item 1 0]).composer dfs 569 25 .regular).chars.length ≤ 48 ∧
    roomFor (printSet 0 0 (withItems [item 1 0]).composer dfs 569 25 .regular).chars.length
      ((withItems [item 1 0]).onCrawl (fun c => { c with
        hold := [tapeA 0 1, tapeA 1 7, tapeA 2 13] })) = false := by decide

theorem witness_CancelAndStatusTakes :
    (withItems [.cancel dfs 569 25]).resetAsserted = false ∧
    (withItems [.cancel dfs 569 25]).isHead = true ∧
    (withItems [.cancel dfs 569 25]).composer.printQueue = [.cancel dfs 569 25] ∧
    awaiting (withItems [.cancel dfs 569 25]) ≤ 2 ∧
    (withItems [.cancel dfs 569 25]).crawl.hold.length + (cancelText dfs 569 25).length ≤ 48 ∧
    (withItems [.status dfs .halted]).composer.printQueue = [.status dfs .halted] ∧
    (withItems [.status dfs .halted]).crawl.hold.length + (statusText dfs .halted).length ≤ 48 ∧
    2 < awaiting (head.onCrawl (fun c => { c with hold := [tapeA 0 1, tapeA 1 7, tapeA 2 13] })) := by
  decide

theorem witness_IdleTimerAndDecay :
    ((idleAt 128 0).resetAsserted = false ∧ (idleAt 128 0).isHead = true ∧
      (idleAt 128 0).composer.idleTimer = some 128 ∧ (idleAt 128 0).composer.level = 0) ∧
    (idleAt 127 0).composer.idleTimer = some 127 ∧ (withItems [item 1 0]).composer.idleTimer = none ∧
    (0 < (idleAt 128 1).composer.level ∧ awaiting (idleAt 128 1) ≤ 2 ∧
      (idleAt 128 1).crawl.hold.length + (lowerNotice ((idleAt 128 1).composer.level - 1)).length ≤ 48) ∧
    ((idleAt 128 1).straps.ribbon = some 0 ∧ (idleAt 128 1).listenOnly = false ∧
      (queued [] [] (idleAt 128 1)).line.generalQueue = []) ∧
    2 < awaiting ((idleAt 128 1).onCrawl (fun c => { c with
      hold := [tapeA 0 1, tapeA 1 7, tapeA 2 13] })) := by decide

/-! ### Witnesses: the line -/

theorem witness_SentFrameIsAssembled :
    (lineQuiet desk).line.assembler = .seeking ∧ (List.replicate 32 (0xF0 : Byte)).length ≤ 32 ∧
    ((onAir .general 0 0 false head).line.sending = some ⟨.general, .pace, paceBytes, 0, 0, false⟩ ∧
      (wireBytes .pace paceBytes)[12]? = some 0x9E ∧ (onAir .general 0 0 false head).resetAsserted = false ∧
      drivenByte (onAir .general 0 0 false head) = some 0xF0) := by
  decide

/-- Station 14 SKIPPING, with or without an escape pending. -/
def skipping (escape : Bool) : State :=
  desk.onLine (fun l => { l with assembler := .skipping, assembly := { Assembly.empty with escape := escape } })

theorem witness_BytesAndQuiet :
    (desk.resetAsserted = false ∧ desk.line.completed = none ∧ desk.line.sending = none) ∧
    ((1 : LineLevels).getLsbD 0 = true ∧ (0 : LineLevels).getLsbD 0 = false ∧
      (0 : LineLevels).getLsbD 9 = false) ∧
    desk.line.assembler = .waitingForQuiet ∧
    ((lineQuiet desk).line.assembler = .seeking ∧ (0xF1 : Byte) ≠ 0xF0) ∧
    ((assembling Assembly.empty desk).line.assembler = .assembling ∧
      (assembling Assembly.empty desk).line.assembly.cls = none ∧
      (assembling Assembly.empty desk).line.assembly.escape = false ∧
      (assembling Assembly.empty desk).line.assembly.inHold = false ∧
      decodeClass 0x00 = some (0, false) ∧ decodeClass 0x0F = none ∧
      decodeClass 0xA4 = some (10, true)) ∧
    ((assembling ⟨some 10, [0], false, false, false⟩ desk).line.assembly.cls.isSome ∧
      (assembling ⟨some 10, [0], false, false, false⟩ desk).line.assembly.bytes.length = 1 ∧
      32 < (33 : Byte).toNat ∧ (32 : Byte).toNat ≤ 32) ∧
    ((assembling ⟨some 10, [0, 6], false, true, false⟩ desk).line.assembly.inHold = true ∧
      2 ≤ (assembling ⟨some 10, [0, 6], false, true, false⟩ desk).line.assembly.bytes.length ∧
      (assembling ⟨some 10, [0, 6], false, true, false⟩ desk).line.assembly.heldRead = false ∧
      (assembling ⟨some 10, [0, 6], false, true, true⟩ desk).line.assembly.heldRead = true ∧
      (0 : Byte) ≠ 0xFF ∧ (0 : Byte) ≠ 0xF0) ∧
    ((assembling ⟨some 10, [0, 6, 14], true, false, false⟩ desk).line.assembly.escape = true ∧
      3 ≤ (assembling ⟨some 10, [0, 6, 14], true, false, false⟩ desk).line.assembly.bytes.length ∧
      desk.isOwnNumber 14 = true ∧ desk.isOwnNumber 15 = false) ∧
    ((skipping false).line.assembler = .skipping ∧ (skipping false).line.assembly.escape = false ∧
      (skipping true).line.assembly.escape = true) ∧
    ((onAir .general 2 0 false head).line.sending = some ⟨.general, .pace, paceBytes, 2, 0, false⟩ ∧
      (⟨.general, .pace, paceBytes, 2, 0, false⟩ : Sending).inHold = false ∧
      (⟨.general, .pace, paceBytes, 2, 0, false⟩ : Sending).nextByte = some 0 ∧
      (⟨.general, .pace, paceBytes, 3, 0, false⟩ : Sending).nextByte = some 6 ∧
      (lineLevels 6).getLsbD 2 = true ∧ (lineLevels 0).getLsbD 2 = false ∧
      (⟨.general, .pace, paceBytes, 4, 23, false⟩ : Sending).inHold = true ∧
      (queued [filler] [] head).line.queue .general = [filler]) := by decide

/-- A queued Answer for a symbol that is not held, and one for "GM  ". -/
def lostAnswerFrame : TxFrame := ⟨22, .answer 1 2 dfs, 0⟩
def gmAnswerFrame : TxFrame := ⟨22, .answer 1 3 gms, 0⟩

theorem witness_AttemptSendsQueueHead :
    planned.resetAsserted = false ∧ State.reset.listenOnly = true ∧
    (onAir .general 0 0 false planned).line.sending.isSome ∧ (quietLine 0 planned).line.quiet < 2 ∧
    (({ desk with line := { desk.line with ownFrameWait := true, quiet := 2 } } : State).line.quiet < 4) ∧
    (planned.straps.station = some 14 ∧ planned.line.sending = none ∧
      (if (quietLine 2 planned).line.ownFrameWait then 4 else 2) ≤ (quietLine 2 planned).line.quiet) ∧
    (queued [] [filler] planned).line.tapeQueue = filler :: [] ∧
    ((queued [lostAnswerFrame, gmAnswerFrame] [] planned).line.generalQueue =
        [lostAnswerFrame] ++ gmAnswerFrame :: [] ∧
      findRecord dfs planned.table = none ∧ (findRecord gms planned.table).isSome) ∧
    ((queued [] [] planned).line.tapeQueue = [] ∧ (queued [] [] planned).line.generalQueue = []) := by
  decide

/-- A frame on the line with a number of failed attempts: bytes sent, hold bytes held, HOLD past. -/
def tried (retries sent held : Nat) (past : Bool) : State :=
  onAir .general sent held past (queued [{ filler with retries := retries }] [] desk)

theorem witness_AttemptOutcomes :
    ((tried 14 3 0 false).resetAsserted = false ∧
      (tried 14 3 0 false).line.sending = some ⟨.general, .pace, paceBytes, 3, 0, false⟩ ∧
      (tried 14 3 0 false).line.queue .general = [{ filler with retries := 14 }] ∧
      (⟨.general, .pace, paceBytes, 3, 0, false⟩ : Sending).inHold = false ∧
      (⟨.general, .pace, paceBytes, 3, 0, false⟩ : Sending).allSent = false) ∧
    (tried 15 4 24 false).line.queue .general = [{ filler with retries := 15 }] ∧
    (tried 15 4 24 false).line.sending = some ⟨.general, .pace, paceBytes, 4, 24, false⟩ ∧
    ((⟨.general, .pace, paceBytes, 4, 23, false⟩ : Sending).inHold = true ∧
      (⟨.general, .pace, paceBytes, 4, 24, false⟩ : Sending).inHold = true ∧
      (⟨.general, .pace, paceBytes, 4, 0, true⟩ : Sending).inHold = false) ∧
    ((⟨.general, .pace, paceBytes, 12, 0, true⟩ : Sending).allSent = true ∧
      (⟨.general, .pace, paceBytes, 11, 0, true⟩ : Sending).allSent = false) ∧
    (tried 15 12 0 true).line.queue .general = [{ filler with retries := 15 }] := by decide

/-- Station 14 in the hold section of a frame for a destination, with n slots in use. -/
def inHold (dest : Nat) (cls n : Nat) : State :=
  slotted n (assembling ⟨some (BitVec.ofNat 4 cls), [BitVec.ofNat 8 dest, 6], false, true, false⟩ desk)

theorem witness_HoldsAndDispatchEnd :
    ((inHold 14 10 2).resetAsserted = false ∧ (inHold 14 10 2).line.assembler = .assembling ∧
      (inHold 14 10 2).line.assembly.inHold = true ∧
      (inHold 14 10 2).concerns (byteAt (inHold 14 10 2).line.assembly.bytes 0) = true ∧
      (inHold 14 10 2).line.assembly.cls = some 10 ∧ classOf 10 = some .pace ∧
      (inHold 14 10 2).listenOnly = false ∧ (inHold 14 10 2).line.sending = none ∧
      2 ≤ (inHold 14 10 2).line.slots.length) ∧
    (inHold 14 10 1).line.slots.length < 2 ∧ desk.line.assembler ≠ .assembling ∧
    (inHold 15 10 2).concerns (byteAt (inHold 15 10 2).line.assembly.bytes 0) = false ∧
    classOf 13 = none ∧ desk.line.dispatching = false ∧
    ((slotted 2 desk).onLine (fun l => { l with dispatching := true })).line.dispatching = true := by decide

/-- Station 14 with n slots in use and a completed frame: a class, a destination and a check byte. -/
def ended (n cls dest origin check : Nat) : State :=
  completed ⟨BitVec.ofNat 4 cls, ⟨BitVec.ofNat 8 dest, BitVec.ofNat 8 origin, []⟩, BitVec.ofNat 8 check⟩
    (slotted n desk)

theorem witness_FrameCompleteDisposes :
    (ended 1 6 0 1 0xFE).resetAsserted = false ∧
    (ended 1 6 0 1 0xFE).line.completed = some ⟨6, ⟨0, 1, []⟩, 0xFE⟩ ∧
    checkByte ⟨0, 1, []⟩ = 0xFE ∧ (0xFD : Byte) ≠ checkByte ⟨0, 1, []⟩ ∧
    desk.isOwnNumber 14 = true ∧ desk.isOwnNumber 1 = false ∧ classOf 13 = none ∧
    classOf 6 = some .dayStart ∧ desk.concerns 0 = true ∧ (ended 1 6 0 1 0xFE).line.slots.length < 2 ∧
    2 ≤ (ended 2 6 0 1 0xFE).line.slots.length ∧ desk.concerns 22 = false ∧
    (classOf 8 = some .answer ∧ desk.isOtherStation 22 = true ∧
      holdsAnswer (queued [gmAnswerFrame] [] desk) = true ∧ holdsAnswer desk = false ∧
      desk.concerns 22 = false ∧ (readAnswer (answerVwx 22)).isSome ∧ readAnswer ⟨22, 1, []⟩ = none) := by
  decide

end Sys2Proof.Tests
end

section
/-!
PROOFS. What a refresh frame leaves alone: the displays, the scans and every key they press do not
touch the lamp driver, so the frame result latched first is the one the frame ends with.
-/
namespace Sys2Proof.Machine

/-! ### The keys leave the lamp driver alone -/

section KeyFrame
variable (t : Fin 4) (s : State)

@[simp] theorem rejectBeep_lamps : (rejectBeep t s).lamps = s.lamps := rfl

@[simp] theorem releaseRecord_lamps (y : Symbol) : (releaseRecord y s).lamps = s.lamps := rfl

@[simp] theorem beginShowing_lamps (y : Symbol) : (beginShowing y s).lamps = s.lamps := rfl

@[simp] theorem addWatch_lamps (e : WatchEntry) : (addWatch t e s).lamps = s.lamps := rfl

@[simp] theorem openAsk_lamps (y : Symbol) : (openAsk t y s).lamps = s.lamps := rfl

@[simp] theorem endAsk_lamps : (endAsk t s).lamps = s.lamps := by
  unfold endAsk
  split <;> rfl

@[simp] theorem abandonAsk_lamps : (abandonAsk t s).lamps = s.lamps := by
  simp [abandonAsk]

@[simp] theorem stopShowing_lamps : (stopShowing t s).lamps = s.lamps := by
  unfold stopShowing
  split <;> rfl

@[simp] theorem watchShown_lamps (y : Symbol) : (watchShown t y s).lamps = s.lamps := by
  unfold watchShown
  split_ifs <;> rfl

@[simp] theorem unwatchShown_lamps (y : Symbol) : (unwatchShown t y s).lamps = s.lamps := by
  unfold unwatchShown
  split_ifs <;> rfl

@[simp] theorem nextShown_lamps (y : Symbol) : (nextShown t y s).lamps = s.lamps := by
  unfold nextShown
  split
  · rfl
  · split_ifs <;> rfl

@[simp] theorem commitLimit_lamps (y : Symbol) (p : Nat) :
    (commitLimit t y p s).lamps = s.lamps := by
  unfold commitLimit
  split
  · rfl
  · split_ifs <;> rfl

@[simp] theorem quoteEntry_lamps (y : Symbol) : (quoteEntry t y s).lamps = s.lamps := by
  unfold quoteEntry
  split_ifs <;> rfl

@[simp] theorem limitDigit_lamps (d : Fin 10) : (limitDigit t d s).lamps = s.lamps := by
  unfold limitDigit
  split_ifs <;> rfl

@[simp] theorem limitRub_lamps : (limitRub t s).lamps = s.lamps := by
  unfold limitRub
  split_ifs <;> rfl

@[simp] theorem limitQuote_lamps (y : Symbol) : (limitQuote t y s).lamps = s.lamps := by
  unfold limitQuote
  split_ifs <;> simp

@[simp] theorem keyIdle_lamps (k : Key) : (keyIdle t k s).lamps = s.lamps := by
  cases k <;> rfl

@[simp] theorem keyKeying_lamps (k : Key) : (keyKeying t k s).lamps = s.lamps := by
  cases k with
  | letter l =>
    simp only [keyKeying]
    split_ifs <;> rfl
  | quote => exact quoteEntry_lamps t s _
  | _ => rfl

@[simp] theorem keyShowing_lamps (k : Key) (y : Symbol) :
    (keyShowing t k y s).lamps = s.lamps := by
  cases k <;> simp [keyShowing]

@[simp] theorem keyLimitEntry_lamps (k : Key) (y : Symbol) :
    (keyLimitEntry t k y s).lamps = s.lamps := by
  cases k with
  | fraction =>
    simp only [keyLimitEntry]
    split_ifs <;> rfl
  | _ => simp [keyLimitEntry]

@[simp] theorem keyByState_lamps (k : Key) : (keyByState t k s).lamps = s.lamps := by
  unfold keyByState
  split
  case h_3 => split_ifs <;> simp
  all_goals simp

@[simp] theorem takeKey_lamps (k : Key) : (takeKey t k s).lamps = s.lamps := by
  unfold takeKey keyOrAcknowledge
  split_ifs <;> simp

@[simp] theorem drainKeys_lamps (n : Nat) (s : State) : (drainKeys t n s).lamps = s.lamps := by
  induction n generalizing s with
  | zero => rfl
  | succ n ih =>
    unfold drainKeys
    split <;> simp [ih]

@[simp] theorem enqueueKey_lamps (k : Key) : (enqueueKey t k s).lamps = s.lamps := rfl

@[simp] theorem offerKey_lamps (k : Key) : (offerKey t k s).lamps = s.lamps := by
  unfold offerKey
  split_ifs <;> simp

@[simp] theorem offerCode_lamps (code : Nat) : (offerCode t s code).lamps = s.lamps := by
  unfold offerCode
  split <;> simp

/-! ### The scans and the displays leave the lamp driver alone -/

theorem foldl_offerCode_lamps (codes : List Nat) (s : State) :
    (codes.foldl (offerCode t) s).lamps = s.lamps := by
  induction codes generalizing s with
  | nil => rfl
  | cons code codes ih => simp [ih]

@[simp] theorem scanTerminal_lamps (raw : BitVec 48) : (scanTerminal t raw s).lamps = s.lamps := by
  unfold scanTerminal
  split_ifs <;> simp [foldl_offerCode_lamps]

@[simp] theorem composeDisplay_lamps : (composeDisplay t s).lamps = s.lamps := by
  unfold composeDisplay
  split_ifs <;> rfl

end KeyFrame

/-! ### The latch (R117) -/

theorem refreshFrame_lamps (r0 r1 r2 r3 : BitVec 48) (s : State) :
    (refreshFrame r0 r1 r2 r3 s).lamps = (latchFrame s).lamps := by
  simp [refreshFrame, scanKeys, composeDisplays]

theorem exec_refreshFrame (r0 r1 r2 r3 : BitVec 48) (s : State) :
    exec (.refreshFrame r0 r1 r2 r3) s = inService s (refreshFrame r0 r1 r2 r3) := rfl

/-- R117: a refresh frame in service ends with the frame result of the picture as it stood at its
beginning, under the effective budget in force then. -/
theorem exec_refreshFrame_result (r0 r1 r2 r3 : BitVec 48) {s : State}
    (h : s.resetAsserted = false) :
    ∃ t, exec (.refreshFrame r0 r1 r2 r3) s = .next t ∧
      t.lamps.result =
        some (frameResult s.lamps.effective (boardImage s) (windowImage s)) := by
  refine ⟨refreshFrame r0 r1 r2 r3 s, ?_, ?_⟩
  · rw [exec_refreshFrame, inService_of_running h]
  · rw [refreshFrame_lamps]
    rfl

end Sys2Proof.Machine
end

section
/-!
PROOFS. The arithmetic of scaling and allocation (R125 to R127): what a scaled level is, what scaled
levels add up to, and how the four amounts of a frame stand to one another.
-/
namespace Sys2Proof.Machine

/-! ### Scaled levels (R126, R127, R129) -/

@[simp] theorem scaled_zero (allowance demand : Nat) : scaled allowance demand 0 = 0 := by
  simp [scaled]

theorem scaled_le (allowance demand level : Nat) : scaled allowance demand level ≤ level := by
  unfold scaled
  split_ifs with h
  · exact Nat.div_le_of_le_mul (by rw [Nat.mul_comm demand]; exact Nat.mul_le_mul_left _ h.le)
  · exact le_rfl

section Sum
variable {α : Type} (n level : α → Nat)

/-- Rounding down each scaled term leaves the sum at most the scaled sum. -/
theorem sum_div_mul_le (a d : Nat) (xs : List α) :
    (xs.map fun x => n x * (level x * a / d)).sum * d ≤ (xs.map fun x => n x * level x).sum * a := by
  induction xs with
  | nil => simp
  | cons x xs ih =>
    have hx : n x * (level x * a / d) * d ≤ n x * level x * a := by
      rw [Nat.mul_assoc, Nat.mul_assoc]
      exact Nat.mul_le_mul_left _ (Nat.div_mul_le_self _ _)
    simp only [List.map_cons, List.sum_cons, Nat.add_mul]
    exact Nat.add_le_add hx ih

/-- R126 to R128: lamps that draw no more than a demand draw, once scaled, neither more than the demand
nor more than the allowance. -/
theorem sum_scaled_le {allowance demand : Nat} {xs : List α}
    (h : (xs.map fun x => n x * level x).sum ≤ demand) :
    (xs.map fun x => n x * scaled allowance demand (level x)).sum ≤ min demand allowance := by
  by_cases hd : allowance < demand
  · simp only [scaled, if_pos hd, min_eq_right hd.le]
    refine Nat.le_of_mul_le_mul_right ?_ (Nat.zero_lt_of_lt hd)
    calc (xs.map fun x => n x * (level x * allowance / demand)).sum * demand
        ≤ (xs.map fun x => n x * level x).sum * allowance := sum_div_mul_le n level _ _ xs
      _ ≤ demand * allowance := Nat.mul_le_mul_right _ h
      _ = allowance * demand := Nat.mul_comm _ _
  · simpa only [scaled, if_neg hd, min_eq_left (not_lt.1 hd)] using h

end Sum

/-! ### The four amounts (R125) -/

section Allocation
variable (bEff dB dR : Nat)

theorem boardFloor_le : 4 * boardFloor bEff dB ≤ bEff := by
  unfold boardFloor
  omega

/-- R125: the board never asks the ribbon below three quarters of the budget. -/
theorem three_quarters_le_ribbonAllowance : 3 * bEff ≤ 4 * ribbonAllowance bEff dB := by
  have := boardFloor_le bEff dB
  unfold ribbonAllowance
  omega

theorem ribbonGrant_le : ribbonGrant bEff dB dR ≤ bEff :=
  (min_le_right _ _).trans (Nat.sub_le _ _)

theorem ribbonGrant_add_boardAllowance :
    ribbonGrant bEff dB dR + boardAllowance bEff dB dR = bEff :=
  Nat.add_sub_of_le (ribbonGrant_le bEff dB dR)

/-- R125: whatever the ribbon asks, the board keeps its floor. -/
theorem boardFloor_le_boardAllowance : boardFloor bEff dB ≤ boardAllowance bEff dB dR := by
  have hfloor := boardFloor_le bEff dB
  have hgrant : ribbonGrant bEff dB dR ≤ bEff - boardFloor bEff dB := min_le_right _ _
  unfold boardAllowance
  omega

/-- R125: the board's allowance is 0 exactly when it asks nothing and the ribbon takes all. -/
theorem boardAllowance_eq_zero_iff {bEff : Nat} (hb : 4 ≤ bEff) :
    boardAllowance bEff dB dR = 0 ↔ dB = 0 ∧ ribbonGrant bEff dB dR = bEff := by
  have hsum := ribbonGrant_add_boardAllowance bEff dB dR
  have hfloor := boardFloor_le_boardAllowance bEff dB dR
  constructor
  · intro h0
    refine ⟨?_, by omega⟩
    unfold boardFloor at hfloor
    omega
  · rintro ⟨-, hgrant⟩
    omega

end Allocation

/-- R123, R124: the warm-up never takes the budget of a strap below a quarter of 1024. -/
theorem le_budgetAt {budget : Nat} (h : 1024 ≤ budget) (warmUp : Nat) :
    256 ≤ budgetAt budget warmUp := by
  unfold budgetAt
  split_ifs <;> omega

/-- R123, R124: the least effective budget in force. -/
theorem le_effective_of_lampsWithinBudget {s : State} (h : lampsWithinBudget s) :
    256 ≤ s.lamps.effective := by
  obtain ⟨hbudget, -, heff, -⟩ := h
  rw [heff]
  exact le_budgetAt hbudget _

/-- Settles O16: the amounts are those of the latched frame result, and what R125 says of them is
arithmetic over an effective budget of at least 256. -/
theorem frameAllocation : Obligations.FrameAllocation := by
  intro r0 r1 r2 r3 s hs hlamps
  obtain ⟨t, hexec, hresult⟩ := exec_refreshFrame_result r0 r1 r2 r3 hs
  have hbudget := le_effective_of_lampsWithinBudget hlamps
  have hquarters := three_quarters_le_ribbonAllowance s.lamps.effective (boardUnits (boardImage s))
  refine ⟨t, _, hexec, hresult, rfl, rfl, rfl, rfl, rfl, rfl, rfl, hquarters, ?_, ?_, ?_⟩
  · show ribbonAllowance _ _ ≠ 0
    omega
  · exact boardFloor_le_boardAllowance _ _ _
  · exact boardAllowance_eq_zero_iff _ _ (by omega)

end Sys2Proof.Machine
end

section
/-!
PROOFS. The levels of a latched picture and of its frame result, lamp by lamp and column by column
(R118, R119, R126, R127, R129).
-/
namespace Sys2Proof.Machine

/-! ### Unscaled board levels (R47 to R53, R118) -/

/-- R118: an unscaled level: dark, or 8 to 15. -/
def unscaledLevel (n : Nat) : Prop := n = 0 ∨ (8 ≤ n ∧ n ≤ 15)

/-- R50: the cell level is 8 to 15. -/
theorem cellLevel_range (st : TradingState) (age : Nat) :
    8 ≤ cellLevel st age ∧ cellLevel st age ≤ 15 := by
  unfold cellLevel
  split_ifs <;> omega

theorem priceLevel_range (r : QuoteRecord) : 8 ≤ r.priceLevel ∧ r.priceLevel ≤ 15 := by
  unfold QuoteRecord.priceLevel
  split_ifs
  · exact cellLevel_range _ _
  · omega

theorem unscaledLevel_of_mem_atLevel {level n : Nat} {lamps : List Bool}
    (hlevel : 8 ≤ level ∧ level ≤ 15) (h : n ∈ atLevel level lamps) : unscaledLevel n := by
  simp only [atLevel, List.mem_map] at h
  obtain ⟨lit, -, rfl⟩ := h
  cases lit
  · exact .inl rfl
  · exact .inr hlevel

theorem unscaledLevel_of_mem_replicate {n k : Nat} (h : n ∈ List.replicate k 0) :
    unscaledLevel n :=
  .inl (List.eq_of_mem_replicate h)

theorem unscaledLevel_of_mem_priceField {r : QuoteRecord} {lit : Bool} {n : Nat}
    (h : n ∈ priceField r lit) : unscaledLevel n := by
  unfold priceField at h
  split_ifs at h
  · exact unscaledLevel_of_mem_atLevel (priceLevel_range r) h
  · exact unscaledLevel_of_mem_replicate h

theorem unscaledLevel_of_mem_tickField {r : QuoteRecord} {lit : Bool} {n : Nat}
    (h : n ∈ tickField r lit) : unscaledLevel n := by
  unfold tickField at h
  split at h
  · exact unscaledLevel_of_mem_atLevel (cellLevel_range _ _) h
  · exact unscaledLevel_of_mem_replicate (k := 2) h

/-- R118: every lamp of a cell's image is dark or at an unscaled level of 8 to 15. -/
theorem unscaledLevel_of_mem_cellImage {table : List QuoteRecord} {c : CellRecord} {n : Nat}
    (h : n ∈ (cellImage table c).levels) : unscaledLevel n := by
  unfold cellImage at h
  split at h
  · simp only [CellLamps.levels, CellLamps.dark, List.mem_append] at h
    rcases h with ((h | h) | h) | h <;> exact unscaledLevel_of_mem_replicate h
  · simp only [CellLamps.levels, List.mem_append] at h
    rcases h with ((h | h) | h) | h
    · exact unscaledLevel_of_mem_priceField h
    · exact unscaledLevel_of_mem_tickField h
    · exact unscaledLevel_of_mem_atLevel (cellLevel_range _ _) h
    · exact unscaledLevel_of_mem_atLevel (by omega) h

/-! ### Scaled board levels (R127) -/

/-- A property of every member of a list and of the default is one of what getD gives. -/
theorem getD_of_forall {α : Type} {p : α → Prop} {l : List α} {d : α} (hd : p d)
    (hl : ∀ x ∈ l, p x) (i : Nat) : p (l.getD i d) := by
  by_cases hi : i < l.length
  · rw [List.getD_eq_getElem l d hi]
    exact hl _ (List.getElem_mem hi)
  · rwa [List.getD_eq_default l d (not_lt.1 hi)]

@[simp] theorem CellLamps.levels_scale (a d : Nat) (c : CellLamps) :
    (c.scale a d).levels = c.levels.map (scaled a d) := by
  simp [CellLamps.levels, CellLamps.scale]

@[simp] theorem CellLamps.scale_dark (a d : Nat) : CellLamps.dark.scale a d = CellLamps.dark := by
  simp [CellLamps.scale, CellLamps.dark]

/-- R127: lamp k of cell i after scaling, inside and outside the lists. -/
theorem getD_levels_map_scale (a d : Nat) (image : List CellLamps) (i k : Nat) :
    ((image.map (CellLamps.scale a d)).getD i CellLamps.dark).levels.getD k 0 =
      scaled a d ((image.getD i CellLamps.dark).levels.getD k 0) := by
  have hcell := List.getD_map (l := image) (d := CellLamps.dark) (n := i) (CellLamps.scale a d)
  have hlamp := List.getD_map (l := (image.getD i CellLamps.dark).levels) (d := 0) (n := k)
    (scaled a d)
  rw [CellLamps.scale_dark] at hcell
  rw [scaled_zero] at hlamp
  rw [hcell, CellLamps.levels_scale, hlamp]

theorem unscaledLevel_boardImage (s : State) (i k : Nat) :
    unscaledLevel (((boardImage s).getD i CellLamps.dark).levels.getD k 0) := by
  have hcell : ∀ n ∈ ((boardImage s).getD i CellLamps.dark).levels, unscaledLevel n := by
    refine getD_of_forall (p := fun c : CellLamps => ∀ n ∈ c.levels, unscaledLevel n) ?_ ?_ i
    · exact fun n hn => unscaledLevel_of_mem_replicate (k := 58) hn
    · intro c hc n hn
      obtain ⟨cell, -, rfl⟩ := List.mem_map.1 hc
      exact unscaledLevel_of_mem_cellImage hn
  exact getD_of_forall (.inl rfl) hcell k

/-! ### Dot columns (R119) -/

theorem attrLevel_eq (a : Attr) : attrLevel a = if a = .notice then 15 else 12 := by
  cases a <;> rfl

@[simp] theorem windowImage_length (s : State) : (windowImage s).length = s.straps.width := by
  simp [windowImage]

/-! ### The levels of a frame result (R117, R129) -/

/-- R127: the final level of every board lamp. -/
theorem frameResult_level (bEff : Nat) (image : List CellLamps)
    (window : List (Option WindowColumn)) (i k : Nat) :
    ((frameResult bEff image window).board.getD i CellLamps.dark).levels.getD k 0 =
      scaled (frameResult bEff image window).allowB (frameResult bEff image window).dB
        ((image.getD i CellLamps.dark).levels.getD k 0) :=
  getD_levels_map_scale _ _ image i k

/-- R126: the dots and the final level of every column in view. -/
theorem frameResult_column (bEff : Nat) (image : List CellLamps)
    {window : List (Option WindowColumn)} {i : Nat} (hi : i < window.length) :
    (frameResult bEff image window).ribbon.getD i ⟨[], 0⟩ =
      dotColumn (frameResult bEff image window).allowR (frameResult bEff image window).dR
        (window.getD i none) := by
  have hlen : i < (frameResult bEff image window).ribbon.length := by simpa [frameResult] using hi
  rw [List.getD_eq_getElem _ _ hlen, List.getD_eq_getElem _ _ hi]
  exact List.getElem_map _

/-- Settles O17: the final levels are the unscaled ones, each through `scaled`. -/
theorem driveLevelsScaled : Obligations.DriveLevelsScaled := by
  intro r0 r1 r2 r3 s hs
  obtain ⟨t, hexec, hresult⟩ := exec_refreshFrame_result r0 r1 r2 r3 hs
  refine ⟨t, _, hexec, hresult, ?_, ?_, ?_, ?_⟩
  · exact List.length_map _
  · intro i k
    have hlevel := frameResult_level s.lamps.effective (boardImage s) (windowImage s) i k
    exact ⟨hlevel, hlevel.trans_le (scaled_le _ _ _), unscaledLevel_boardImage s i k⟩
  · exact (List.length_map _).trans (windowImage_length s)
  · intro i hi
    rw [frameResult_column _ _ (by simpa using hi)]
    refine ⟨fun hdark => ?_, fun w hw => ?_⟩
    · rw [hdark]
      rfl
    · rw [hw, ← attrLevel_eq]
      exact ⟨rfl, rfl, scaled_le _ _ _⟩

end Sys2Proof.Machine
end

section
/-!
PROOFS. What a frame draws (R120 to R122, R128): the board's scaled levels add up to at most its
allowance; the dots in view draw at most the ribbon demand, because a run of columns of one character
shows different columns of one glyph; and so the scaled dots draw at most the grant.
-/
namespace Sys2Proof.Machine

/-! ### The board -/

theorem boardUnits_eq (image : List CellLamps) :
    boardUnits image = (image.flatMap CellLamps.levels).sum := by
  simp [boardUnits, List.flatMap_def, Function.comp_def]

theorem boardUnits_map_scale (a d : Nat) (image : List CellLamps) :
    boardUnits (image.map (CellLamps.scale a d)) =
      ((image.flatMap CellLamps.levels).map (scaled a d)).sum := by
  simp [boardUnits_eq, List.map_flatMap, List.flatMap_map]

/-- R128: the board scaled against its own demand draws at most the allowance. -/
theorem boardUnits_map_scale_le (a : Nat) (image : List CellLamps) :
    boardUnits (image.map (CellLamps.scale a (boardUnits image))) ≤ a := by
  have h := sum_scaled_le (fun _ => 1) id (allowance := a) (demand := boardUnits image)
    (xs := image.flatMap CellLamps.levels) (by simp [boardUnits_eq])
  rw [boardUnits_map_scale]
  simpa using h.trans (min_le_right _ _)

/-! ### The dots of a glyph (R119, R122) -/

/-- R122: a pattern held to n dots lights at most n. -/
theorem fitDots_lit_le (n : Nat) (dots : List Bool) :
    ((fitDots n dots).filter id).length ≤ n := by
  induction dots generalizing n with
  | nil => simp [fitDots]
  | cons dot dots ih =>
    cases n with
    | zero => simpa [fitDots] using ih 0
    | succ n =>
      unfold fitDots
      split_ifs
      · simpa using ih n
      · simpa using ih (n + 1)

/-- The lit dots of a glyph in its columns from k on. -/
def dotsFrom (g : Glyph) (k : Nat) : Nat := (((glyphDots g).drop (7 * k)).filter id).length

theorem dotsFrom_le_dotCount (g : Glyph) (k : Nat) : dotsFrom g k ≤ dotCount g :=
  (((List.drop_sublist _ _).filter id).length_le).trans (fitDots_lit_le _ _)

theorem dotsFrom_anti (g : Glyph) {j k : Nat} (h : j ≤ k) : dotsFrom g k ≤ dotsFrom g j :=
  ((List.drop_sublist_drop_left _ (Nat.mul_le_mul_left 7 h)).filter id).length_le

/-- A glyph column's lit dots are none of those of the columns after it. -/
theorem glyphColumn_lit_add_dotsFrom_le (g : Glyph) (k : Nat) :
    ((glyphColumn g k).filter id).length + dotsFrom g (k + 1) ≤ dotsFrom g k := by
  unfold glyphColumn
  split_ifs with hk
  · have hsplit := List.take_append_drop 7 ((glyphDots g).drop (7 * k))
    rw [List.drop_drop] at hsplit
    unfold dotsFrom
    conv_rhs => rw [← hsplit]
    rw [List.filter_append, List.length_append, Nat.mul_succ]
  · simpa using dotsFrom_anti g (Nat.le_succ k)

/-! ### The ribbon (R121, R126) -/

/-- The unscaled level of a dot column, 0 for a dark one. -/
def columnLevel : Option WindowColumn → Nat
  | none => 0
  | some c => attrLevel c.attr

@[simp] theorem columnLevel_some (c : WindowColumn) : columnLevel (some c) = attrLevel c.attr := rfl

/-- The lit dots of a dot column, 0 for a dark one. -/
def columnLit : Option WindowColumn → Nat
  | none => 0
  | some c => ((glyphColumn c.glyph c.column).filter id).length

@[simp] theorem columnLit_none : columnLit none = 0 := rfl

@[simp] theorem columnLit_some (c : WindowColumn) :
    columnLit (some c) = ((glyphColumn c.glyph c.column).filter id).length := rfl

theorem dotColumn_units (a d : Nat) (w : Option WindowColumn) :
    (dotColumn a d w).units = columnLit w * scaled a d (columnLevel w) := by
  cases w <;> simp [dotColumn, DotColumn.units]

/-- What the charge of a window column still covers: the columns of its glyph after it. -/
def chargeLeft : Option WindowColumn → Nat
  | none => 0
  | some p => dotsFrom p.glyph (p.column + 1) * attrLevel p.attr

@[simp] theorem chargeLeft_none : chargeLeft none = 0 := rfl

@[simp] theorem chargeLeft_some (p : WindowColumn) :
    chargeLeft (some p) = dotsFrom p.glyph (p.column + 1) * attrLevel p.attr := rfl

/-- R121: a column and all after it in its glyph are covered by what is left of the charge it
continues, or by the one it begins. -/
theorem dotsFrom_le_charge (prev : Option WindowColumn) (c : WindowColumn) :
    dotsFrom c.glyph c.column * attrLevel c.attr ≤
      chargeLeft prev + if beginsCharge prev c then dotCount c.glyph * attrLevel c.attr else 0 := by
  by_cases hb : beginsCharge prev c = true
  · rw [if_pos hb]
    exact (Nat.mul_le_mul_right _ (dotsFrom_le_dotCount _ _)).trans (Nat.le_add_left _ _)
  · rw [if_neg hb, Nat.add_zero]
    cases prev with
    | none => exact absurd rfl hb
    | some p =>
      obtain ⟨⟨⟨-, hglyph⟩, hattr⟩, hcolumn⟩ :
          ((p.index = c.index ∧ p.glyph = c.glyph) ∧ p.attr = c.attr) ∧ p.column < c.column := by
        simpa [beginsCharge] using hb
      rw [chargeLeft_some, hglyph, hattr]
      exact Nat.mul_le_mul_right _ (dotsFrom_anti _ hcolumn)

/-- R121: the dots of a window, unscaled, draw at most its demand and what is left of the charge that
its first column continues. -/
theorem sum_columns_le_chargeLeft_add (prev : Option WindowColumn)
    (window : List (Option WindowColumn)) :
    (window.map fun w => columnLit w * columnLevel w).sum ≤
      chargeLeft prev + ribbonDemand prev window := by
  induction window generalizing prev with
  | nil => simp
  | cons w ws ih =>
    cases w with
    | none =>
      have hrest := ih none
      rw [chargeLeft_none, Nat.zero_add] at hrest
      simpa [ribbonDemand] using hrest.trans (Nat.le_add_left _ _)
    | some c =>
      have hcharge := dotsFrom_le_charge prev c
      have hcolumn := Nat.mul_le_mul_right (attrLevel c.attr)
        (glyphColumn_lit_add_dotsFrom_le c.glyph c.column)
      have hrest := ih (some c)
      rw [Nat.add_mul] at hcolumn
      simp only [chargeLeft_some] at hrest
      simp only [List.map_cons, List.sum_cons, columnLit_some, columnLevel_some, ribbonDemand]
      omega

/-- R121: the dots of a window, unscaled, draw at most the ribbon demand. -/
theorem sum_columns_le_ribbonDemand (window : List (Option WindowColumn)) :
    (window.map fun w => columnLit w * columnLevel w).sum ≤ ribbonDemand none window := by
  simpa using sum_columns_le_chargeLeft_add none window

/-- R126, R128: the dots scaled against the ribbon demand draw at most the grant. -/
theorem sum_units_map_dotColumn_le (a : Nat) (window : List (Option WindowColumn)) :
    ((window.map (dotColumn a (ribbonDemand none window))).map DotColumn.units).sum ≤
      min (ribbonDemand none window) a := by
  simpa [Function.comp_def, dotColumn_units] using
    sum_scaled_le columnLit columnLevel (sum_columns_le_ribbonDemand window)

/-! ### The frame (R128) -/

section Frame
variable (bEff : Nat) (image : List CellLamps) (window : List (Option WindowColumn))

theorem frameResult_board_le :
    boardUnits (frameResult bEff image window).board ≤ (frameResult bEff image window).allowB :=
  boardUnits_map_scale_le _ image

theorem frameResult_ribbon_le :
    ((frameResult bEff image window).ribbon.map DotColumn.units).sum ≤
      (frameResult bEff image window).grantR :=
  sum_units_map_dotColumn_le _ window

theorem frameResult_grantR_add_allowB :
    (frameResult bEff image window).grantR + (frameResult bEff image window).allowB = bEff :=
  ribbonGrant_add_boardAllowance _ _ _

/-- R128: all levels of a frame result together draw at most its effective budget. -/
theorem frameResult_drawn_le : (frameResult bEff image window).drawn ≤ bEff := by
  have hboard := frameResult_board_le bEff image window
  have hribbon := frameResult_ribbon_le bEff image window
  have hsum := frameResult_grantR_add_allowB bEff image window
  unfold FrameResult.drawn
  omega

end Frame

/-- Settles O15: the board and the ribbon each draw at most their share, and the shares add up to the
budget. -/
theorem frameDrawsWithinBudget : Obligations.FrameDrawsWithinBudget := by
  intro r0 r1 r2 r3 s hs
  obtain ⟨t, hexec, hresult⟩ := exec_refreshFrame_result r0 r1 r2 r3 hs
  exact ⟨t, _, hexec, hresult, rfl, frameResult_grantR_add_allowB _ _ _,
    frameResult_board_le _ _ _, frameResult_ribbon_le _ _ _, frameResult_drawn_le _ _ _⟩

end Sys2Proof.Machine
end

section
/-!
PROOFS. The step and the commands as a whole: what a command does in service, one principle for every
invariant of the step, and the tier 1 statements that follow at once.
-/
namespace Sys2Proof.Machine

/-! ### A command in service -/

/-- What a command does to the blocks while the part is in service. The two commands of the reset pin act
at any time and are not among them (R197). -/
def effectOf : Instr → State → State
  | .resetAssert => id
  | .powerOnReset _ => id
  | .floorTick => floorTick
  | .patternEnd cell => fun s => s.onCells [cell] CellRecord.endIfDue
  | .refreshFrame raw0 raw1 raw2 raw3 => refreshFrame raw0 raw1 raw2 raw3
  | .debounceChange t pos => debouncePosition t pos.val
  | .letterKey t letter => offerKey t (.letter letter)
  | .digitKey t digit => offerKey t (.digit digit)
  | .quoteKey t => offerKey t .quote
  | .clearKey t => offerKey t .clear
  | .rubKey t => offerKey t .rub
  | .watchKey t => offerKey t .watch
  | .unwatchKey t => offerKey t .unwatch
  | .nextKey t => offerKey t .next
  | .limitKey t => offerKey t .limit
  | .fractionKey t => offerKey t .fraction
  | .beeperExpiry t => fun s => s.onTerm t Terminal.beeperExpiry
  | .messageExpiry t => fun s => s.onTerm t Terminal.messageExpiry
  | .warmUpPhase => State.budgetPhase
  | .lineSilenceTimeout => lightAtLimit
  | .crawlStep => crawlStep
  | .pendingPaceQueued => meetPendingPace
  | .print f => handled .print f (f.dest == 0) ((readPrint f).map applyPrint)
  | .quote f => handled .quote f (f.dest == 0) ((readQuote f).map tableQuote)
  | .status f => handled .status f (f.dest == 0) ((readStatus f).map applyStatus)
  | .cancel f => handled .cancel f (f.dest == 0) ((readCancel f).map applyCancel)
  | .plan f => fun s =>
    handled .plan f (s.isOwnNumber f.dest) ((readPlan s.straps.board f).map tablePlan) s
  | .dayStart f => fun s =>
    handled .dayStart f (f.dest == 0 || s.isOwnNumber f.dest)
      ((readDayStart f).map (fun _ => dayStart)) s
  | .ask f => fun s => handled .ask f (takesAsk f s) ((readAsk f).map (takeAsk f.origin)) s
  | .answer f => fun s =>
    if s.isOtherStation f.dest then s
    else handled .answer f (s.isOwnNumber f.dest) ((readAnswer f).map takeAnswer) s
  | .answerSnoop f => fun s =>
    if s.isOtherStation f.dest then handled .answer f true ((readAnswer f).map (suppress f.dest)) s
    else s
  | .handoff f => fun s => handled .handoff f (s.isOwnSegment f.dest) (handoffEffect f s) s
  | .pace f => handled .pace f (f.dest == 0) ((readPace f).map crawlPace)
  | .tallyQuery f => fun s =>
    handled .tallyQuery f (s.isOwnNumber f.dest) ((readTallyQuery f).map (takeTallyQuery f.origin)) s
  | .tally f => handled .tally f false none
  | .printTake => printTake
  | .cancelTake => cancelTake
  | .statusTake => statusTake
  | .idleTimerExpiry => fun s => if s.isHead then s.onComposer Composer.idleExpiry else s
  | .idleDecay => idleDecay
  | .silenceCoasting => fun s => s.onCrawl Crawl.coastingExpiry
  | .silenceWaiting => fun s => s.onCrawl Crawl.waitingExpiry
  | .askTimeout t => timeoutAsk t
  | .byteReceived bits stop => byteReceived (stop ++ bits)
  | .lineQuiet => lineQuiet
  | .attemptStart => attemptStart
  | .arbitrationLoss => arbitrationLoss
  | .holdByte => holdByte
  | .holdOut => holdOut
  | .frameAbandoned => abandonFrame
  | .attemptComplete => attemptComplete
  | .frameComplete => frameComplete
  | .dispatchEnd => dispatchEnd

/-- A command that is not one of the reset pin's acts in service alone (log entry 7). -/
theorem exec_eq_inService {c : Instr} (s : State) (hr : c ≠ .resetAssert)
    (hp : ∀ pins, c ≠ .powerOnReset pins) : exec c s = inService s (effectOf c) := by
  cases c with
  | resetAssert => exact absurd rfl hr
  | powerOnReset pins => exact absurd rfl (hp pins)
  | _ => rfl

theorem exec_resetAssert (s : State) : exec .resetAssert s = .next (assertReset s) := rfl

theorem exec_powerOnReset (pins : StrapPins) (s : State) :
    exec (.powerOnReset pins) s = .next (powerOnReset pins s) := rfl

/-- All a command can answer: the assertion or the release of the reset pin, nothing while the pin is
asserted, or its effect in service. -/
theorem exec_cases (c : Instr) (s : State) :
    (c = .resetAssert ∧ exec c s = .next (assertReset s)) ∨
    (∃ pins, c = .powerOnReset pins ∧ exec c s = .next (powerOnReset pins s)) ∨
    (s.resetAsserted = true ∧ exec c s = .next s) ∨
    (s.resetAsserted = false ∧ exec c s = .next (effectOf c s)) := by
  by_cases hr : c = .resetAssert
  · exact .inl ⟨hr, by rw [hr]; rfl⟩
  by_cases hp : ∃ pins, c = .powerOnReset pins
  · obtain ⟨pins, rfl⟩ := hp
    exact .inr (.inl ⟨pins, rfl, rfl⟩)
  rw [exec_eq_inService s hr (by simpa using hp)]
  cases h : s.resetAsserted
  · exact .inr (.inr (.inr ⟨rfl, inService_of_running h _⟩))
  · exact .inr (.inr (.inl ⟨rfl, inService_of_reset h _⟩))

/-- A step takes the front command, or is a timer clock. -/
theorem step_cons {s : State} {c : Instr} {rest : List Instr} (h : s.pending = c :: rest) :
    step s = exec c (s.withPending rest) := by
  simp only [step, h]

theorem step_nil {s : State} (h : s.pending = []) : step s = inService s timerClock := by
  simp only [step, h]

/-- An invariant of the blocks is kept by every step where the assertion and the release of the reset pin,
a timer clock, and every command in service keep it. -/
theorem step_keeps {P : State → Prop} (hpending : ∀ s q, P s → P (s.withPending q))
    (hassert : ∀ s, P s → P (assertReset s)) (hrelease : ∀ pins s, P s → P (powerOnReset pins s))
    (hclock : ∀ s, s.resetAsserted = false → P s → P (timerClock s))
    (heffect : ∀ c s, s.resetAsserted = false → P s → P (effectOf c s))
    {s t : State} (h : P s) (hst : step s = .next t) : P t := by
  cases hq : s.pending with
  | nil =>
    rw [step_nil hq] at hst
    rcases inService_next hst with ⟨-, rfl⟩ | ⟨hr, rfl⟩
    · exact h
    · exact hclock s hr h
  | cons c rest =>
    rw [step_cons hq] at hst
    have hs := hpending s rest h
    rcases exec_cases c (s.withPending rest) with ⟨-, he⟩ | ⟨pins, -, he⟩ | ⟨-, he⟩ | ⟨hr, he⟩ <;>
      rw [he, Host.Outcome.next.injEq] at hst <;> rw [← hst]
    · exact hassert _ hs
    · exact hrelease pins _ hs
    · exact hs
    · exact heffect c _ hr hs

/-- What a handled frame keeps, where its slot's release, its refusal and its effect do. -/
theorem handled_keeps {P : State → Prop} {c : MsgClass} {f : Frame} {listed : Bool}
    {effect : Option (State → State)} {s : State} (h : P s) (hfree : P (freeSlot s))
    (hrefuse : P (freeSlot (s.count .framesDiscarded)))
    (heffect : ∀ g, effect = some g → s.offers c f = true → listed = true → P (g (beginDispatch s))) :
    P (handled c f listed effect s) := by
  rcases handled_cases c f listed effect s with ⟨-, e⟩ | ⟨-, -, e⟩ | ⟨-, -, -, e⟩ |
    ⟨g, ho, hl, hg, e⟩ <;> rw [e]
  · exact h
  · exact hfree
  · exact hrefuse
  · exact heffect g hg ho hl

/-- Settles O1: by the two cases of the queue of waiting commands. -/
theorem stepRunsFrontCommand : Obligations.StepRunsFrontCommand := by
  refine ⟨fun s c rest h => step_cons h, fun s h => ?_⟩
  rw [step_nil h]
  refine ⟨fun hr => inService_of_reset hr _, fun hr hm => ?_, fun hr hm hc => ?_, fun hr hm hc => ?_⟩
  · rw [inService_of_running hr, timerClock, if_neg (by simp [hm])]
  · rw [inService_of_running hr, timerClock, if_pos hm, if_neg hc]
    rfl
  · rw [inService_of_running hr, timerClock, if_pos hm, if_pos hc]
    exact (inService_of_running hr _).symm

end Sys2Proof.Machine
end

section
/-!
PROOFS. What the terminals' operations leave alone. A key, an ask's end and a scan touch the table's
references and order, the terminal itself, the tag counter, the general queue and nothing else.
-/
namespace Sys2Proof.Machine

/-! ### The straps' predicates -/

theorem isHead_of_straps {s t : State} (h : t.straps = s.straps) : t.isHead = s.isHead := by
  simp only [State.isHead, h]

theorem isTail_of_straps {s t : State} (h : t.straps = s.straps) : t.isTail = s.isTail := by
  simp only [State.isTail, h]

theorem listenOnly_of_straps {s t : State} (h : t.straps = s.straps) :
    t.listenOnly = s.listenOnly := by
  simp only [State.listenOnly, h]

theorem active_of_straps {s t : State} (h : t.straps = s.straps) (u : Fin 4) :
    t.active u = s.active u := by
  simp only [State.active, h]

/-! ### Tables with the same records but for references and order -/

/-- Tables whose records, where no symbol is held twice, are the same but for their order and for all but
their symbols and cell pins. -/
def pinsKept (table table' : List QuoteRecord) : Prop :=
  (table.map QuoteRecord.symbol).Nodup →
    (table'.map fun r => (r.symbol, r.pins)).Perm (table.map fun r => (r.symbol, r.pins))

theorem pinsKept.refl (table : List QuoteRecord) : pinsKept table table := fun _ => .refl _

theorem symbols_perm {table table' : List QuoteRecord}
    (h : (table'.map fun r => (r.symbol, r.pins)).Perm (table.map fun r => (r.symbol, r.pins))) :
    (table'.map QuoteRecord.symbol).Perm (table.map QuoteRecord.symbol) := by
  simpa [Function.comp_def] using h.map Prod.fst

theorem pinsKept.trans {a b c : List QuoteRecord} (hab : pinsKept a b) (hbc : pinsKept b c) :
    pinsKept a c := fun ha =>
  (hbc ((symbols_perm (hab ha)).nodup_iff.2 ha)).trans (hab ha)

theorem pinsKept_updateRecord {y : Symbol} {f : QuoteRecord → QuoteRecord} (table : List QuoteRecord)
    (hs : ∀ r, (f r).symbol = r.symbol := by intro _; rfl)
    (hp : ∀ r, (f r).pins = r.pins := by intro _; rfl) :
    pinsKept table (updateRecord y f table) := by
  intro _
  have : (updateRecord y f table).map (fun r => (r.symbol, r.pins)) =
      table.map fun r => (r.symbol, r.pins) := by
    simp only [updateRecord, List.map_map]
    refine List.map_congr_left fun r _ => ?_
    simp only [Function.comp]
    split <;> simp [hs, hp]
  exact .of_eq this

/-- Where no symbol is held twice, a record and those of other symbols are the whole table. -/
theorem perm_cons_filter_of_findRecord {y : Symbol} {table : List QuoteRecord} {r : QuoteRecord}
    (hd : (table.map QuoteRecord.symbol).Nodup) (h : findRecord y table = some r) :
    (r :: table.filter (fun q => q.symbol != y)).Perm table := by
  induction table with
  | nil => cases h
  | cons q qs ih =>
    rw [List.map_cons, List.nodup_cons] at hd
    by_cases hq : q.symbol = y
    · have hr : q = r := by simpa [findRecord, hq] using h
      have hrest : qs.filter (fun q => q.symbol != y) = qs := by
        refine List.filter_eq_self.2 fun p hp => ?_
        have : p.symbol ≠ y := fun e => hd.1 (List.mem_map.2 ⟨p, hp, e.trans hq.symm⟩)
        simpa using this
      rw [List.filter_cons_of_neg (by simpa using hq), hrest, hr]
    · have h' : findRecord y qs = some r := by
        simpa [findRecord, List.find?_cons_of_neg, hq] using h
      rw [List.filter_cons_of_pos (by simpa using hq)]
      exact (List.Perm.swap _ _ _).trans ((ih hd.2 h').cons q)

theorem moveToFront_perm {table : List QuoteRecord} (y : Symbol)
    (hd : (table.map QuoteRecord.symbol).Nodup) : (moveToFront y table).Perm table := by
  unfold moveToFront
  split
  · exact perm_cons_filter_of_findRecord hd ‹_›
  · exact .refl _

theorem pinsKept_moveToFront (y : Symbol) (table : List QuoteRecord) :
    pinsKept table (moveToFront y table) := fun hd => (moveToFront_perm y hd).map _

/-! ### Counts in range -/

/-- Every tally in range (R202) stays so. -/
def countsKept (c d : Tallies) : Prop := ∀ k, c.get k ≤ Config.tallyMax → d.get k ≤ Config.tallyMax

@[refl] theorem countsKept.refl (c : Tallies) : countsKept c c := fun _ h => h

theorem countsKept.trans {a b c : Tallies} (h : countsKept a b) (k : countsKept b c) :
    countsKept a c := fun j hj => k j (h j hj)

theorem countsKept_bump (c : Tallies) (k : Tally) : countsKept c (c.bump k) := by
  intro j hj
  by_cases h : j = k
  · subst h
    rw [Tallies.get_bump_self]
    exact saturate_le hj
  · rwa [Tallies.get_bump_of_ne c h]

theorem countsKept_zero (c : Tallies) : countsKept c Tallies.zero := fun k _ => by
  cases k <;> exact Nat.zero_le _

/-! ### What the line interface holds (R184, R190, R191) -/

/-- The queues and slots of a line interface are within their sizes, and a dispatch in progress has its
slot. -/
def Line.within (l : Line) : Prop :=
  l.tapeQueue.length ≤ Config.tapeQueueSize ∧ l.generalQueue.length ≤ Config.generalQueueSize ∧
  l.slots.length ≤ Config.slotCount ∧ (l.dispatching = true → l.slots ≠ [])

/-- A line interface with nothing to send that sends nothing and holds nothing. -/
def Line.silent (l : Line) : Prop :=
  l.tapeQueue = [] ∧ l.generalQueue = [] ∧ l.sending = none ∧ l.ownFrameWait = false ∧
  l.holding = false ∧ l.holdDrive = false

/-- A line interface, with the mark of a pending Pace request, that goes on within its sizes, and silent
where the station is listen-only. -/
def sendsKept (listenOnly : Bool) (a b : Line × Bool) : Prop :=
  (a.1.within → b.1.within) ∧
  (listenOnly = true → a.1.silent ∧ a.2 = false → b.1.silent ∧ b.2 = false)

@[refl] theorem sendsKept.refl (listenOnly : Bool) (a : Line × Bool) : sendsKept listenOnly a a :=
  ⟨id, fun _ => id⟩

theorem sendsKept.trans {listenOnly : Bool} {a b c : Line × Bool} (h : sendsKept listenOnly a b)
    (k : sendsKept listenOnly b c) : sendsKept listenOnly a c :=
  ⟨fun x => k.1 (h.1 x), fun hl x => k.2 hl (h.2 hl x)⟩

/-- What a state holds for the line. -/
def State.outbox (s : State) : Line × Bool := (s.line, s.crawl.pendingPace)

theorem withdraw_sends (s : State) (p : TxFrame → Bool) :
    sendsKept s.listenOnly s.outbox (s.withdraw p).outbox := by
  refine ⟨fun ⟨ht, hg, hs⟩ => ⟨ht, (withdraw_generalQueue_length s p).trans hg, hs⟩,
    fun _ ⟨⟨ht, hg, hs⟩, hp⟩ => ⟨⟨ht, ?_, hs⟩, hp⟩⟩
  have hlen := withdraw_generalQueue_length s p
  rw [show s.line.generalQueue = [] from hg] at hlen
  exact List.length_eq_zero_iff.1 (Nat.le_zero.1 hlen)

/-- R184: a frame joins the general queue of a station that may send, where it has room. -/
theorem appendGeneral_sends {s : State} (d : Byte) (p : TxPayload) (hl : s.listenOnly = false)
    (hg : s.generalFull = false) : sendsKept s.listenOnly s.outbox (s.appendGeneral d p).outbox := by
  refine ⟨fun ⟨ht, _, hs⟩ => ⟨ht, ?_, hs⟩, fun h => absurd (hl.symm.trans h) (by simp)⟩
  simp only [State.generalFull, decide_eq_false_iff_not, not_le] at hg
  show (s.line.generalQueue ++ [_]).length ≤ _
  rw [List.length_append]
  exact hg

/-! ### The desk: table, cells, terminals -/

/-- t is s but for the table, the cells, the terminals, the tag counter, the tallies and the general
queue. -/
structure DeskFootprint (s t : State) : Prop where
  resetAsserted : t.resetAsserted = s.resetAsserted
  straps : t.straps = s.straps
  tickCount : t.tickCount = s.tickCount
  composer : t.composer = s.composer
  crawl : t.crawl = s.crawl
  lamps : t.lamps = s.lamps
  line : t.line = { s.line with generalQueue := t.line.generalQueue }
  lineSilence : t.lineSilence = s.lineSilence
  faultLamp : t.faultLamp = s.faultLamp
  pending : t.pending = s.pending
  counts : countsKept s.tallies t.tallies
  sends : sendsKept s.listenOnly s.outbox t.outbox

theorem DeskFootprint.refl (s : State) : DeskFootprint s s := by constructor <;> rfl

theorem DeskFootprint.trans {s t u : State} (h : DeskFootprint s t) (k : DeskFootprint t u) :
    DeskFootprint s u where
  resetAsserted := k.resetAsserted.trans h.resetAsserted
  straps := k.straps.trans h.straps
  tickCount := k.tickCount.trans h.tickCount
  composer := k.composer.trans h.composer
  crawl := k.crawl.trans h.crawl
  lamps := k.lamps.trans h.lamps
  line := by rw [k.line, h.line]
  lineSilence := k.lineSilence.trans h.lineSilence
  faultLamp := k.faultLamp.trans h.faultLamp
  pending := k.pending.trans h.pending
  counts := h.counts.trans k.counts
  sends := h.sends.trans (listenOnly_of_straps h.straps ▸ k.sends)

theorem withdraw_desk (s : State) (p : TxFrame → Bool) : DeskFootprint s (s.withdraw p) :=
  { DeskFootprint.refl s with line := rfl, sends := withdraw_sends s p }

theorem appendGeneral_desk {s : State} (d : Byte) (p : TxPayload) (hl : s.listenOnly = false)
    (hg : s.generalFull = false) : DeskFootprint s (s.appendGeneral d p) :=
  { DeskFootprint.refl s with line := rfl, sends := appendGeneral_sends d p hl hg }

/-! ### Keys at one terminal -/

/-- u is s but for what a key taken at terminal t may change: the table's references and order, the
terminal's own fields but for its matrix and its display, the tag counter and the general queue. -/
structure KeyFootprint (t : Fin 4) (s u : State) : Prop extends DeskFootprint s u where
  cells : u.cells = s.cells
  tallies : u.tallies = s.tallies
  others : ∀ v, v ≠ t → u.term v = s.term v
  debounce : (u.term t).debounce = (s.term t).debounce
  ghostLock : (u.term t).ghostLock = (s.term t).ghostLock
  display : (u.term t).display = (s.term t).display
  records : pinsKept s.table u.table

theorem KeyFootprint.refl (t : Fin 4) (s : State) : KeyFootprint t s s where
  toDeskFootprint := .refl s
  cells := rfl
  tallies := rfl
  others _ _ := rfl
  debounce := rfl
  ghostLock := rfl
  display := rfl
  records := .refl _

theorem KeyFootprint.trans {t : Fin 4} {s u v : State} (h : KeyFootprint t s u)
    (k : KeyFootprint t u v) : KeyFootprint t s v where
  toDeskFootprint := h.toDeskFootprint.trans k.toDeskFootprint
  cells := k.cells.trans h.cells
  tallies := k.tallies.trans h.tallies
  others w hw := (k.others w hw).trans (h.others w hw)
  debounce := k.debounce.trans h.debounce
  ghostLock := k.ghostLock.trans h.ghostLock
  display := k.display.trans h.display
  records := h.records.trans k.records

section Keys
variable (t : Fin 4) (s : State)

theorem onTerm_footprint {f : Terminal → Terminal}
    (hd : ∀ m, (f m).debounce = m.debounce := by intro _; rfl)
    (hg : ∀ m, (f m).ghostLock = m.ghostLock := by intro _; rfl)
    (hs : ∀ m, (f m).display = m.display := by intro _; rfl) :
    KeyFootprint t s (s.onTerm t f) where
  toDeskFootprint := by constructor <;> rfl
  cells := rfl
  tallies := rfl
  others _ h := State.term_onTerm_of_ne _ _ h
  debounce := by rw [State.term_onTerm_self, hd]
  ghostLock := by rw [State.term_onTerm_self, hg]
  display := by rw [State.term_onTerm_self, hs]
  records := .refl _

theorem withTable_footprint {table : List QuoteRecord} (h : pinsKept s.table table) :
    KeyFootprint t s (s.withTable table) where
  toDeskFootprint := by constructor <;> rfl
  cells := rfl
  tallies := rfl
  others _ _ := rfl
  debounce := rfl
  ghostLock := rfl
  display := rfl
  records := h

theorem withdraw_footprint (p : TxFrame → Bool) : KeyFootprint t s (s.withdraw p) where
  toDeskFootprint := withdraw_desk s p
  cells := rfl
  tallies := rfl
  others _ _ := rfl
  debounce := rfl
  ghostLock := rfl
  display := rfl
  records := .refl _

theorem rejectBeep_footprint : KeyFootprint t s (rejectBeep t s) :=
  onTerm_footprint t s

theorem releaseRecord_footprint (y : Symbol) : KeyFootprint t s (releaseRecord y s) :=
  withTable_footprint t s (pinsKept_updateRecord _)

theorem beginShowing_footprint (y : Symbol) : KeyFootprint t s (beginShowing y s) :=
  withTable_footprint t s ((pinsKept_updateRecord _).trans
    (pinsKept_moveToFront _ _))

theorem addWatch_footprint (e : WatchEntry) : KeyFootprint t s (addWatch t e s) :=
  (withTable_footprint t s (pinsKept_updateRecord _)).trans
    (onTerm_footprint t _)

theorem openAsk_footprint (y : Symbol) (hl : s.listenOnly = false) (hg : s.generalFull = false) :
    KeyFootprint t s (openAsk t y s) := by
  have hdesk : DeskFootprint s (s.withAskTag (s.askTag + 1)) := by constructor <;> rfl
  refine KeyFootprint.trans (u := (s.withAskTag (s.askTag + 1)).appendGeneral 0
    (.ask t (s.askTag + 1) y)) ?_ (onTerm_footprint t _)
  exact { KeyFootprint.refl t s with toDeskFootprint := hdesk.trans (appendGeneral_desk _ _ hl hg) }

theorem endAsk_footprint : KeyFootprint t s (endAsk t s) := by
  unfold endAsk
  split
  · exact .refl t s
  · exact (withdraw_footprint t s _).trans
      (onTerm_footprint t _)

theorem abandonAsk_footprint : KeyFootprint t s (abandonAsk t s) :=
  (endAsk_footprint t s).trans (onTerm_footprint t _)

theorem stopShowing_footprint : KeyFootprint t s (stopShowing t s) := by
  unfold stopShowing
  split
  · exact (releaseRecord_footprint t s _).trans
      (onTerm_footprint t _)
  · exact .refl t s

theorem watchShown_footprint (y : Symbol) : KeyFootprint t s (watchShown t y s) := by
  unfold watchShown
  split_ifs
  · exact rejectBeep_footprint t s
  · exact rejectBeep_footprint t s
  · exact addWatch_footprint t s _

theorem unwatchShown_footprint (y : Symbol) : KeyFootprint t s (unwatchShown t y s) := by
  unfold unwatchShown
  split_ifs
  · exact (releaseRecord_footprint t s _).trans
      (onTerm_footprint t _)
  · exact rejectBeep_footprint t s

theorem nextShown_footprint (y : Symbol) : KeyFootprint t s (nextShown t y s) := by
  unfold nextShown
  split
  · exact rejectBeep_footprint t s
  · split_ifs
    · exact .refl t s
    · exact ((releaseRecord_footprint t s _).trans (beginShowing_footprint t _ _)).trans
        (onTerm_footprint t _)

theorem commitLimit_footprint (y : Symbol) (p : Nat) : KeyFootprint t s (commitLimit t y p s) := by
  unfold commitLimit
  split
  · exact rejectBeep_footprint t s
  · split_ifs
    · exact rejectBeep_footprint t s
    · exact onTerm_footprint t s
    · exact rejectBeep_footprint t s
    · exact addWatch_footprint t s _

theorem quoteEntry_footprint (y : Symbol) : KeyFootprint t s (quoteEntry t y s) := by
  unfold quoteEntry
  split_ifs with hy hl hg
  · exact (beginShowing_footprint t s _).trans
      (onTerm_footprint t _)
  · exact onTerm_footprint t s
  · exact onTerm_footprint t s
  · exact openAsk_footprint t s _ (by simpa using hl) (by simpa using hg)

theorem limitDigit_footprint (d : Fin 10) : KeyFootprint t s (limitDigit t d s) := by
  unfold limitDigit
  split_ifs
  · exact rejectBeep_footprint t s
  · exact onTerm_footprint t s
  · exact rejectBeep_footprint t s
  · exact onTerm_footprint t s
  · exact rejectBeep_footprint t s

theorem limitRub_footprint : KeyFootprint t s (limitRub t s) := by
  unfold limitRub
  split_ifs
  · exact onTerm_footprint t s
  · exact onTerm_footprint t s
  · exact rejectBeep_footprint t s
  · exact onTerm_footprint t s

theorem limitQuote_footprint (y : Symbol) : KeyFootprint t s (limitQuote t y s) := by
  unfold limitQuote
  split_ifs
  · exact (commitLimit_footprint t s _ _).trans
      (onTerm_footprint t _)
  · exact rejectBeep_footprint t s

theorem keyIdle_footprint (k : Key) : KeyFootprint t s (keyIdle t k s) := by
  unfold keyIdle
  split
  · exact onTerm_footprint t s
  · exact .refl t s

theorem keyKeying_footprint (k : Key) : KeyFootprint t s (keyKeying t k s) := by
  cases k with
  | letter l =>
    simp only [keyKeying]
    split_ifs
    · exact onTerm_footprint t s
    · exact rejectBeep_footprint t s
  | rub => exact onTerm_footprint t s
  | clear =>
    simp only [keyKeying]
    exact onTerm_footprint t s
  | quote => exact quoteEntry_footprint t s _
  | _ => exact rejectBeep_footprint t s

theorem keyShowing_footprint (k : Key) (y : Symbol) : KeyFootprint t s (keyShowing t k y s) := by
  unfold keyShowing
  split
  · exact (stopShowing_footprint t s).trans (onTerm_footprint t _)
  · exact (stopShowing_footprint t s).trans (onTerm_footprint t _)
  · exact .refl t s
  · exact watchShown_footprint t s y
  · exact unwatchShown_footprint t s y
  · exact nextShown_footprint t s y
  · exact onTerm_footprint t s
  · exact rejectBeep_footprint t s

theorem keyLimitEntry_footprint (k : Key) (y : Symbol) :
    KeyFootprint t s (keyLimitEntry t k y s) := by
  cases k with
  | digit d => exact limitDigit_footprint t s d
  | fraction =>
    simp only [keyLimitEntry]
    split_ifs
    · exact rejectBeep_footprint t s
    · exact onTerm_footprint t s
  | rub => exact limitRub_footprint t s
  | quote => exact limitQuote_footprint t s y
  | clear => exact onTerm_footprint t s
  | _ => exact rejectBeep_footprint t s

theorem keyByState_footprint (k : Key) : KeyFootprint t s (keyByState t k s) := by
  unfold keyByState
  split
  · exact keyIdle_footprint t s k
  · exact keyKeying_footprint t s k
  · split_ifs
    · exact abandonAsk_footprint t s
    · exact .refl t s
  · exact keyShowing_footprint t s k _
  · exact keyLimitEntry_footprint t s k _
  · exact .refl t s
  · exact .refl t s

theorem takeKey_footprint (k : Key) : KeyFootprint t s (takeKey t k s) := by
  have hhush : KeyFootprint t s (s.onTerm t Terminal.hush) :=
    onTerm_footprint t s
  unfold takeKey keyOrAcknowledge
  split_ifs
  · exact hhush.trans (onTerm_footprint t _)
  · exact hhush.trans (keyByState_footprint t _ k)

theorem drainKeys_footprint (n : Nat) : KeyFootprint t s (drainKeys t n s) := by
  induction n generalizing s with
  | zero => exact .refl t s
  | succ n ih =>
    unfold drainKeys
    split
    · exact .refl t s
    · exact .refl t s
    · exact ((onTerm_footprint t s).trans
        (takeKey_footprint t _ _)).trans (ih _)

/-- R139: all a key produced at a terminal can do: be dropped and counted, or what a key does. -/
theorem offerKey_cases (k : Key) :
    (s.active t = true ∧ 4 ≤ (s.term t).keyQueue.length ∧
      offerKey t k s = rejectBeep t (s.count .keysAlertsDropped)) ∨
    KeyFootprint t s (offerKey t k s) := by
  have hput : KeyFootprint t s (enqueueKey t k s) :=
    onTerm_footprint t s
  unfold offerKey
  split_ifs with ha hq hs hc
  · exact .inl ⟨ha, hq, rfl⟩
  · exact .inr (takeKey_footprint t s k)
  · exact .inr hput
  · exact .inr (hput.trans (drainKeys_footprint t _ _))
  · exact .inr (.refl t s)

theorem timeoutAsk_cases :
    (askDue t s = false ∧ timeoutAsk t s = s) ∨
    (askDue t s = true ∧ timeoutAsk t s =
      ((endAsk t s).count .asksTimedOut).onTerm t (fun m => m.dropAsk.say .noQuote)) := by
  unfold timeoutAsk
  cases h : askDue t s
  · exact .inl ⟨rfl, rfl⟩
  · exact .inr ⟨rfl, rfl⟩

end Keys

/-! ### Scans -/

/-- u is s but for what a scan of terminal t, or a key produced there, may change. -/
structure ScanFootprint (t : Fin 4) (s u : State) : Prop extends DeskFootprint s u where
  cells : u.cells = s.cells
  others : ∀ v, v ≠ t → u.term v = s.term v
  display : (u.term t).display = (s.term t).display
  records : pinsKept s.table u.table

theorem ScanFootprint.refl (t : Fin 4) (s : State) : ScanFootprint t s s :=
  ⟨.refl s, rfl, fun _ _ => rfl, rfl, .refl _⟩

theorem ScanFootprint.trans {t : Fin 4} {s u v : State} (h : ScanFootprint t s u)
    (k : ScanFootprint t u v) : ScanFootprint t s v where
  toDeskFootprint := h.toDeskFootprint.trans k.toDeskFootprint
  cells := k.cells.trans h.cells
  others w hw := (k.others w hw).trans (h.others w hw)
  display := k.display.trans h.display
  records := h.records.trans k.records

theorem KeyFootprint.scan {t : Fin 4} {s u : State} (h : KeyFootprint t s u) :
    ScanFootprint t s u :=
  ⟨h.toDeskFootprint, h.cells, h.others, h.display, h.records⟩

section Scans
variable (t : Fin 4) (s : State)

theorem onTerm_scan {f : Terminal → Terminal}
    (hs : ∀ m, (f m).display = m.display := by intro _; rfl) :
    ScanFootprint t s (s.onTerm t f) where
  toDeskFootprint := by constructor <;> rfl
  cells := rfl
  others _ h := State.term_onTerm_of_ne _ _ h
  display := by rw [State.term_onTerm_self, hs]
  records := .refl _

theorem count_scan (k : Tally) : ScanFootprint t s (s.count k) where
  toDeskFootprint := { DeskFootprint.refl s with counts := countsKept_bump _ _ }
  cells := rfl
  others _ _ := rfl
  display := rfl
  records := .refl _

theorem offerKey_scan (k : Key) : ScanFootprint t s (offerKey t k s) := by
  rcases offerKey_cases t s k with ⟨-, -, e⟩ | h
  · rw [e]
    exact (count_scan t s _).trans (rejectBeep_footprint t _).scan
  · exact h.scan

theorem timeoutAsk_scan : ScanFootprint t s (timeoutAsk t s) := by
  rcases timeoutAsk_cases t s with ⟨-, e⟩ | ⟨-, e⟩ <;> rw [e]
  · exact .refl t s
  · exact ((endAsk_footprint t s).scan.trans (count_scan t _ _)).trans (onTerm_scan t _)

theorem offerCode_scan (code : Nat) : ScanFootprint t s (offerCode t s code) := by
  unfold offerCode
  split
  · exact offerKey_scan t s _
  · exact .refl t s

theorem foldl_offerCode_scan (codes : List Nat) : ScanFootprint t s (codes.foldl (offerCode t) s) := by
  induction codes generalizing s with
  | nil => exact .refl t s
  | cons code codes ih => exact (offerCode_scan t s code).trans (ih _)

theorem scanTerminal_scan (raw : BitVec 48) : ScanFootprint t s (scanTerminal t raw s) := by
  unfold scanTerminal
  split_ifs
  · exact onTerm_scan t s
  · exact (onTerm_scan t s).trans (foldl_offerCode_scan t _ _)
  · exact .refl t s

theorem debouncePosition_scan (pos : Nat) : ScanFootprint t s (debouncePosition t pos s) := by
  unfold debouncePosition
  split_ifs
  · exact onTerm_scan t s
  · exact (onTerm_scan t s).trans (offerCode_scan t _ _)
  · exact .refl t s

end Scans

end Sys2Proof.Machine
end

section
/-!
PROOFS. What the messages' effects, the tape and the line leave alone: footprints of the board, of the
composer and the crawl unit, and of the line interface.
-/
namespace Sys2Proof.Machine

/-! ### The board: table, cells and alerts -/

section Desk
variable (s : State)

theorem withTable_desk (table : List QuoteRecord) : DeskFootprint s (s.withTable table) := by
  constructor <;> rfl

theorem onCells_desk (ns : List (Fin 16)) (f : CellRecord → CellRecord) :
    DeskFootprint s (s.onCells ns f) := by
  constructor <;> rfl

theorem count_desk (k : Tally) : DeskFootprint s (s.count k) :=
  { DeskFootprint.refl s with counts := countsKept_bump _ _ }

theorem onTerm_desk (t : Fin 4) (f : Terminal → Terminal) : DeskFootprint s (s.onTerm t f) := by
  constructor <;> rfl

theorem tablePrint_desk (m : PrintMsg) : DeskFootprint s (tablePrint m s) := by
  unfold tablePrint
  split
  · exact .refl s
  · split_ifs
    · exact .refl s
    · exact (withTable_desk s _).trans (onCells_desk _ _ _)

/-- R172: all one terminal's test can do. -/
theorem fireAt_cases (y : Symbol) (p : Nat) (t : Fin 4) :
    fireAt y p t s = s ∨
    ∃ l, (s.term t).armedLimit y = some l ∧ s.active t = true ∧ l.crossedBy p = true ∧
      fireAt y p t s = (if 4 ≤ (s.term t).alerts.length then s.count .keysAlertsDropped
        else s).onTerm t (Terminal.fire y p l.direction) := by
  unfold fireAt
  split
  · exact .inl rfl
  · rename_i l hl
    cases h : s.active t && l.crossedBy p
    · exact .inl rfl
    · rw [Bool.and_eq_true] at h
      exact .inr ⟨l, hl, h.1, h.2, rfl⟩

theorem fireAt_desk (y : Symbol) (p : Nat) (t : Fin 4) : DeskFootprint s (fireAt y p t s) := by
  rcases fireAt_cases s y p t with h | ⟨l, -, -, -, h⟩ <;> rw [h]
  · exact .refl s
  · split_ifs
    · exact (count_desk s _).trans (onTerm_desk _ _ _)
    · exact onTerm_desk s _ _

theorem fireAll_desk (y : Symbol) (p : Nat) : DeskFootprint s (fireAll y p s) :=
  (((fireAt_desk s y p 0).trans (fireAt_desk _ y p 1)).trans (fireAt_desk _ y p 2)).trans
    (fireAt_desk _ y p 3)

theorem firePrint_desk (m : PrintMsg) : DeskFootprint s (firePrint m s) := by
  unfold firePrint
  split
  · exact .refl s
  · split_ifs
    · exact .refl s
    · exact fireAll_desk s _ _

theorem setRecordState_desk (y : Symbol) (st : TradingState) :
    DeskFootprint s (setRecordState y st s) := by
  unfold setRecordState
  split
  · exact .refl s
  · split_ifs
    · exact .refl s
    · exact (withTable_desk s _).trans (onCells_desk _ _ _)

theorem tableCancel_desk (m : CancelMsg) : DeskFootprint s (tableCancel m s) := withTable_desk s _

theorem tableQuote_desk (m : QuoteMsg) : DeskFootprint s (tableQuote m s) := withTable_desk s _

theorem tablePlan_desk (m : PlanMsg) : DeskFootprint s (tablePlan m s) :=
  (withTable_desk s _).trans (onCells_desk _ _ _)

theorem tableAnswer_desk (m : AnswerMsg) : DeskFootprint s (tableAnswer m s) :=
  (((withTable_desk s (ensureHeld m.symbol s.table)).trans (withTable_desk _ _)).trans
    (setRecordState_desk _ m.symbol m.state)).trans (withTable_desk _ _)

theorem takeAnswer_desk (m : AnswerMsg) : DeskFootprint s (takeAnswer m s) := by
  unfold takeAnswer
  split_ifs
  · exact ((((endAsk_footprint m.terminal s).toDeskFootprint).trans (tableAnswer_desk _ m)).trans
      (onTerm_desk _ _ _)).trans (drainKeys_footprint _ _ _).toDeskFootprint
  · exact count_desk s _

/-- R163: only a station that may send answers. -/
theorem answers_mayReply {s : State} {y : Symbol} (h : answers y s = true) : s.listenOnly = false := by
  unfold answers at h
  split at h
  · simp only [Bool.and_eq_true, Bool.not_eq_true'] at h
    exact h.1
  · cases h

theorem takeAsk_desk (origin : Byte) (m : AskMsg) : DeskFootprint s (takeAsk origin m s) := by
  unfold takeAsk
  split_ifs with ha hq hg
  · exact .refl s
  · exact count_desk s _
  · exact appendGeneral_desk _ _ (answers_mayReply ha) (by simpa using hg)
  · exact .refl s

theorem takeTallyQuery_desk (origin : Byte) (clear : Bool) (hl : s.listenOnly = false) :
    DeskFootprint s (takeTallyQuery origin clear s) := by
  have hzero : ∀ u : State, DeskFootprint u (u.withTallies Tallies.zero) := fun u =>
    { DeskFootprint.refl u with counts := countsKept_zero _ }
  unfold takeTallyQuery
  split_ifs with hg hc
  · exact count_desk s _
  · exact (appendGeneral_desk _ _ hl (by simpa using hg)).trans (hzero _)
  · exact appendGeneral_desk _ _ hl (by simpa using hg)

theorem suppress_desk (dest : Byte) (m : AnswerMsg) : DeskFootprint s (suppress dest m s) :=
  withdraw_desk s _

end Desk

/-! ### The tape: composer and crawl unit -/

/-- t is s but for the composer, the crawl unit, the tallies and the two transmit queues. -/
structure TapeFootprint (s t : State) : Prop where
  resetAsserted : t.resetAsserted = s.resetAsserted
  straps : t.straps = s.straps
  tickCount : t.tickCount = s.tickCount
  table : t.table = s.table
  cells : t.cells = s.cells
  lamps : t.lamps = s.lamps
  terminals : t.terminals = s.terminals
  askTag : t.askTag = s.askTag
  line : t.line = { s.line with tapeQueue := t.line.tapeQueue, generalQueue := t.line.generalQueue }
  lineSilence : t.lineSilence = s.lineSilence
  faultLamp : t.faultLamp = s.faultLamp
  pending : t.pending = s.pending
  counts : countsKept s.tallies t.tallies
  sends : sendsKept s.listenOnly s.outbox t.outbox

theorem TapeFootprint.refl (s : State) : TapeFootprint s s := by constructor <;> rfl

theorem TapeFootprint.trans {s t u : State} (h : TapeFootprint s t) (k : TapeFootprint t u) :
    TapeFootprint s u where
  resetAsserted := k.resetAsserted.trans h.resetAsserted
  straps := k.straps.trans h.straps
  tickCount := k.tickCount.trans h.tickCount
  table := k.table.trans h.table
  cells := k.cells.trans h.cells
  lamps := k.lamps.trans h.lamps
  terminals := k.terminals.trans h.terminals
  askTag := k.askTag.trans h.askTag
  line := by rw [k.line, h.line]
  lineSilence := k.lineSilence.trans h.lineSilence
  faultLamp := k.faultLamp.trans h.faultLamp
  pending := k.pending.trans h.pending
  counts := h.counts.trans k.counts
  sends := h.sends.trans (listenOnly_of_straps h.straps ▸ k.sends)

section Tape
variable (s : State)

theorem onCrawl_tape {f : Crawl → Crawl}
    (hp : (f s.crawl).pendingPace = s.crawl.pendingPace ∨ (f s.crawl).pendingPace = false := by
      exact .inl rfl) : TapeFootprint s (s.onCrawl f) :=
  { TapeFootprint.refl s with
    sends := ⟨id, fun _ h => ⟨h.1, hp.elim (fun e => e.trans h.2) id⟩⟩ }

theorem onComposer_tape (f : Composer → Composer) : TapeFootprint s (s.onComposer f) := by
  constructor <;> rfl

theorem count_tape (k : Tally) : TapeFootprint s (s.count k) :=
  { TapeFootprint.refl s with counts := countsKept_bump _ _ }

theorem queuePace_tape (r : Fin 4) (hl : s.listenOnly = false) (hg : s.generalFull = false) :
    TapeFootprint s (queuePace r s) :=
  { TapeFootprint.refl s with line := rfl, sends := appendGeneral_sends _ _ hl hg }

theorem withHoldAndTape_tape (hold : List TapeChar) (q : List TxFrame)
    (hq : s.line.tapeQueue.length ≤ 8 → q.length ≤ 8)
    (hl : s.listenOnly = true → q = s.line.tapeQueue) :
    TapeFootprint s (s.withHoldAndTape hold q) :=
  { TapeFootprint.refl s with
    line := rfl
    sends := ⟨fun ⟨ht, hs⟩ => ⟨hq ht, hs⟩,
      fun h ⟨⟨ht, hs⟩, hp⟩ => ⟨⟨(hl h).trans ht, hs⟩, hp⟩⟩ }

theorem enqueueItem_tape (i : TapeItem) : TapeFootprint s (enqueueItem i s) := by
  rcases enqueueItem_cases i s with ⟨-, h⟩ | ⟨-, h⟩ <;> rw [h]
  · exact onComposer_tape s _
  · exact (count_tape s _).trans (onComposer_tape _ _)

theorem composerPrint_tape (m : PrintMsg) : TapeFootprint s (composerPrint m s) := by
  unfold composerPrint
  split_ifs
  · exact enqueueItem_tape s _
  · exact .refl s

theorem composerStatus_tape (m : StatusMsg) : TapeFootprint s (composerStatus m s) := by
  unfold composerStatus
  split_ifs
  · exact enqueueItem_tape s _
  · exact .refl s

theorem composerCancel_tape (m : CancelMsg) : TapeFootprint s (composerCancel m s) := by
  unfold composerCancel
  split_ifs
  · exact onComposer_tape s _
  · exact enqueueItem_tape s _
  · exact .refl s

/-- R107: a listen-only head makes no request. -/
theorem requestPace_of_listenOnly (h : s.listenOnly = true) : requestPace s = s := by
  unfold requestPace
  split
  · rfl
  · simp [h]

theorem requestPace_tape : TapeFootprint s (requestPace s) := by
  cases hl : s.listenOnly with
  | true =>
    rw [requestPace_of_listenOnly s hl]
    exact .refl s
  | false =>
    rcases requestPace_cases s with h | ⟨-, h⟩ | ⟨r, -, -, -, hg, h⟩ <;> rw [h]
    · exact .refl s
    · exact { TapeFootprint.refl s with
        sends := ⟨id, fun h => absurd (hl.symm.trans h) (by simp)⟩ }
    · exact (queuePace_tape s r hl hg).trans (onCrawl_tape _ (.inr rfl))

/-- R110: a pending request is met; a listen-only station has none (R107). -/
theorem meetPendingPace_tape : TapeFootprint s (meetPendingPace s) := by
  rcases meetPendingPace_cases s with h | ⟨r, -, hp, hg, h⟩ <;> rw [h]
  · exact .refl s
  · cases hl : s.listenOnly with
    | false => exact (queuePace_tape s r hl hg).trans (onCrawl_tape _ (.inr rfl))
    | true =>
      refine { TapeFootprint.refl s with line := rfl, sends := ⟨fun ⟨ht, _, hs⟩ => ⟨ht, ?_, hs⟩, ?_⟩ }
      · simp only [State.generalFull, decide_eq_false_iff_not, not_le] at hg
        show (s.line.generalQueue ++ [_]).length ≤ _
        rw [List.length_append]
        exact hg
      · exact fun _ h => absurd (hp.symm.trans h.2) (by simp)

theorem enterLevel_tape (n : Nat) : TapeFootprint s (enterLevel n s) :=
  ((onComposer_tape s _).trans (onCrawl_tape _)).trans (requestPace_tape _)

theorem stepLevel_tape (n : Nat) : TapeFootprint s (stepLevel n s) := by
  unfold stepLevel
  split_ifs
  · exact .refl s
  · exact enterLevel_tape s n

theorem composeSet_tape (set : List (Glyph × Attr)) : TapeFootprint s (composeSet set s) := by
  obtain ⟨new, e, h, -⟩ := composeSet_eq set s
  rw [h]
  exact (onCrawl_tape s).trans (onComposer_tape _ _)

theorem makePrintTake_tape (x : PrintSet) (y : Symbol) (price : Nat) (kind : PrintKind)
    (rest : List TapeItem) : TapeFootprint s (makePrintTake x y price kind rest s) :=
  ((stepLevel_tape s _).trans (composeSet_tape _ _)).trans (onComposer_tape _ _)

theorem printTake_tape : TapeFootprint s (printTake s) := by
  unfold printTake
  split
  · split_ifs
    · exact makePrintTake_tape s _ _ _ _ _
    · exact .refl s
  · exact .refl s

theorem takeText_tape (text : List (Glyph × Attr)) (rest : List TapeItem) :
    TapeFootprint s (takeText text rest s) := by
  unfold takeText
  split_ifs
  · exact (composeSet_tape s _).trans (onComposer_tape _ _)
  · exact .refl s

theorem cancelTake_tape : TapeFootprint s (cancelTake s) := by
  unfold cancelTake
  split
  · exact takeText_tape s _ _
  · exact .refl s

theorem statusTake_tape : TapeFootprint s (statusTake s) := by
  unfold statusTake
  split
  · exact takeText_tape s _ _
  · exact .refl s

theorem idleTick_tape : TapeFootprint s (idleTick s) := by
  unfold idleTick
  split_ifs
  · exact onComposer_tape s _
  · exact .refl s

theorem idleDecay_tape : TapeFootprint s (idleDecay s) := by
  unfold idleDecay
  split_ifs
  · exact ((enterLevel_tape s _).trans (composeSet_tape _ _)).trans (onComposer_tape _ _)
  · exact .refl s

theorem sendBatch_tape (batch : List TapeChar)
    (hroom : s.listenOnly = true ∨ s.line.tapeQueue.length < Config.tapeQueueSize) :
    TapeFootprint s (sendBatch batch s) := by
  obtain ⟨hold, q, h, -, hq, -⟩ := sendBatch_eq batch s
  have hlen : s.line.tapeQueue.length ≤ 8 → q.length ≤ 8 := by
    intro hle
    rcases hroom with hl | hlt
    · rwa [hq hl]
    · have hq' : q = (sendBatch batch s).line.tapeQueue := by rw [h]; rfl
      rw [hq']
      cases hl : s.listenOnly with
      | true => simpa [sendBatch, hl, removePassed, markSent] using hle
      | false =>
        have hgoal : (queueHandoff batch s).line.tapeQueue.length ≤ 8 := by
          unfold queueHandoff
          split
          · show (s.line.tapeQueue ++ [_]).length ≤ 8
            rw [List.length_append]
            exact hlt
          · exact hle
        simpa [sendBatch, hl, removePassed, markSent] using hgoal
  rw [h]
  exact withHoldAndTape_tape s _ _ hlen hq

theorem forward_tape (n : Nat) : TapeFootprint s (forward n s) := by
  induction n generalizing s with
  | zero => exact .refl s
  | succ n ih =>
    unfold forward
    split
    · exact .refl s
    · split_ifs with hroom
      · exact (sendBatch_tape s _ (by simpa using hroom)).trans (ih _)
      · exact .refl s

theorem removePassed_tape : TapeFootprint s (removePassed s) := onCrawl_tape s

theorem judgeHold_tape : TapeFootprint s (judgeHold s) :=
  (removePassed_tape s).trans (forward_tape _ _)

theorem paceAtMultiple_tape : TapeFootprint s (paceAtMultiple s) := by
  unfold paceAtMultiple
  split_ifs
  · exact requestPace_tape s
  · exact .refl s

theorem advance_pendingPace (c : Crawl) : c.advance.pendingPace = c.pendingPace := by
  unfold Crawl.advance
  split_ifs <;> rfl

theorem crawlStep_tape : TapeFootprint s (crawlStep s) := by
  unfold crawlStep
  split
  · refine ((onCrawl_tape s ?_).trans (judgeHold_tape _)).trans (paceAtMultiple_tape _)
    cases hh : s.isHead
    · exact .inl (advance_pendingPace _)
    · exact .inl rfl
  · exact .refl s

theorem timerClock_tape : TapeFootprint s (timerClock s) := by
  unfold timerClock
  split_ifs
  · exact crawlStep_tape s
  · exact onCrawl_tape s
  · exact .refl s

theorem enterRunning_tape : TapeFootprint s (enterRunning s) :=
  (onCrawl_tape s).trans (judgeHold_tape _)

theorem placeChar_tape (c : TapeChar) : TapeFootprint s (placeChar c s) := by
  rcases placeChar_cases c s with ⟨-, h⟩ | ⟨-, -, -, -, h⟩ | ⟨-, -, -, -, h⟩ | ⟨-, -, h⟩ <;> rw [h]
  · exact count_tape s _
  · exact count_tape s _
  · exact (count_tape s _).trans (onCrawl_tape _)
  · exact onCrawl_tape s

theorem placeChars_tape (i : Col) (cs : List HandoffChar) : TapeFootprint s (placeChars i cs s) := by
  induction cs generalizing i s with
  | nil => exact .refl s
  | cons c cs ih => exact (placeChar_tape s _).trans (ih _ _)

theorem takeOffset_tape (o : BitVec 16) : TapeFootprint s (takeOffset o s) := by
  unfold takeOffset
  split
  · split_ifs
    · exact (onCrawl_tape s).trans (enterRunning_tape _)
    · exact onCrawl_tape s
  · split_ifs
    · exact .refl s
    · exact (count_tape s _).trans (onCrawl_tape _)

theorem forwardIfMoving_tape : TapeFootprint s (forwardIfMoving s) := by
  unfold forwardIfMoving
  split_ifs
  · exact forward_tape s _
  · exact .refl s

theorem takeHandoff_tape (m : HandoffMsg) : TapeFootprint s (takeHandoff m s) :=
  ((takeOffset_tape s m.offset).trans (placeChars_tape _ m.first m.chars)).trans
    (forwardIfMoving_tape _)

theorem correctSteps_tape (head : Col) : TapeFootprint s (correctSteps head s) := by
  unfold correctSteps
  split_ifs
  · exact onCrawl_tape s
  · exact onCrawl_tape s
  · exact ((count_tape s _).trans (onCrawl_tape _)).trans (judgeHold_tape _)

theorem takePace_tape (m : PaceMsg) : TapeFootprint s (takePace m s) := by
  unfold takePace
  split
  · exact .refl s
  · split_ifs
    · exact (onCrawl_tape s).trans (enterRunning_tape _)
    · exact onCrawl_tape s
  · exact (onCrawl_tape s).trans (correctSteps_tape _ _)
  · exact (onCrawl_tape s).trans (correctSteps_tape _ _)

theorem crawlPace_tape (m : PaceMsg) : TapeFootprint s (crawlPace m s) := by
  unfold crawlPace
  split_ifs
  · exact takePace_tape s m
  · exact .refl s

end Tape

/-! ### The line interface -/

/-- t is s but for the line interface and the tallies, or with the line-silence timer started again and
the fault lamp dark (R205). -/
structure LineFootprint (s t : State) : Prop where
  resetAsserted : t.resetAsserted = s.resetAsserted
  straps : t.straps = s.straps
  tickCount : t.tickCount = s.tickCount
  table : t.table = s.table
  cells : t.cells = s.cells
  composer : t.composer = s.composer
  crawl : t.crawl = s.crawl
  lamps : t.lamps = s.lamps
  terminals : t.terminals = s.terminals
  askTag : t.askTag = s.askTag
  pending : t.pending = s.pending
  counts : countsKept s.tallies t.tallies
  sends : sendsKept s.listenOnly s.outbox t.outbox
  silence : (t.lineSilence = s.lineSilence ∧ t.faultLamp = s.faultLamp) ∨
    (t.lineSilence = 0 ∧ t.faultLamp = false)

theorem LineFootprint.refl (s : State) : LineFootprint s s where
  resetAsserted := rfl
  straps := rfl
  tickCount := rfl
  table := rfl
  cells := rfl
  composer := rfl
  crawl := rfl
  lamps := rfl
  terminals := rfl
  askTag := rfl
  pending := rfl
  counts := .refl _
  sends := .refl _ _
  silence := .inl ⟨rfl, rfl⟩

theorem LineFootprint.trans {s t u : State} (h : LineFootprint s t) (k : LineFootprint t u) :
    LineFootprint s u where
  resetAsserted := k.resetAsserted.trans h.resetAsserted
  straps := k.straps.trans h.straps
  tickCount := k.tickCount.trans h.tickCount
  table := k.table.trans h.table
  cells := k.cells.trans h.cells
  composer := k.composer.trans h.composer
  crawl := k.crawl.trans h.crawl
  lamps := k.lamps.trans h.lamps
  terminals := k.terminals.trans h.terminals
  askTag := k.askTag.trans h.askTag
  pending := k.pending.trans h.pending
  counts := h.counts.trans k.counts
  sends := h.sends.trans (listenOnly_of_straps h.straps ▸ k.sends)
  silence := by
    rcases k.silence with ⟨hn, hl⟩ | hk
    · rw [hn, hl]
      exact h.silence
    · exact .inr hk

section Line
variable (s : State)

theorem onLine_line {f : Line → Line}
    (h : sendsKept s.listenOnly s.outbox (s.onLine f).outbox := by exact ⟨id, fun _ => id⟩) :
    LineFootprint s (s.onLine f) :=
  { LineFootprint.refl s with sends := h }

/-- R179, R186: a line interface that stops to hold a byte, or whose attempt ends, stays as silent. -/
theorem turnTo_line (a : AsmState) : LineFootprint s (s.onLine (Line.turnTo a)) :=
  onLine_line s ⟨id, fun _ ⟨⟨ht, hg, hs, hw, _, _⟩, hp⟩ => ⟨⟨ht, hg, hs, hw, rfl, rfl⟩, hp⟩⟩

theorem offLine_line : LineFootprint s (offLine s) :=
  onLine_line s ⟨id, fun _ ⟨⟨ht, hg, _, hh⟩, hp⟩ => ⟨⟨ht, hg, rfl, hh⟩, hp⟩⟩

theorem onSending_line (f : Sending → Sending) : LineFootprint s (s.onSending f) :=
  onLine_line s ⟨id, fun _ ⟨⟨ht, hg, hs, hh⟩, hp⟩ =>
    ⟨⟨ht, hg, Option.map_eq_none_iff.2 hs, hh⟩, hp⟩⟩

theorem count_line (k : Tally) : LineFootprint s (s.count k) :=
  { LineFootprint.refl s with counts := countsKept_bump _ _ }

theorem withSilence_line : LineFootprint s (s.withSilence 0 false) :=
  { LineFootprint.refl s with silence := .inr ⟨rfl, rfl⟩ }

theorem onAssembly_line (f : Assembly → Assembly) : LineFootprint s (s.onAssembly f) :=
  onLine_line s

/-- A transmit queue that does not grow leaves the line as silent and within its sizes. -/
theorem onQueue_line (q : QueueId) {f : List TxFrame → List TxFrame}
    (hf : ∀ fs, (f fs).length ≤ fs.length) : LineFootprint s (s.onQueue q f) := by
  have hnil : ∀ fs, fs = [] → f fs = [] := fun fs h =>
    List.length_eq_zero_iff.1 (Nat.le_zero.1 (by simpa [h] using hf fs))
  cases q
  · exact onLine_line s (f := fun l => { l with tapeQueue := f l.tapeQueue })
      ⟨fun ⟨ht, hs⟩ => ⟨(hf _).trans ht, hs⟩, fun _ ⟨⟨ht, hs⟩, hp⟩ => ⟨⟨hnil _ ht, hs⟩, hp⟩⟩
  · exact onLine_line s (f := fun l => { l with generalQueue := f l.generalQueue })
      ⟨fun ⟨ht, hg, hs⟩ => ⟨ht, (hf _).trans hg, hs⟩,
        fun _ ⟨⟨ht, hg, hs⟩, hp⟩ => ⟨⟨ht, hnil _ hg, hs⟩, hp⟩⟩

theorem breakFrame_line (next : AsmState) : LineFootprint s (breakFrame next s) := by
  rcases breakFrame_cases next s with ⟨-, h⟩ | ⟨-, h⟩ <;> rw [h]
  · exact turnTo_line s _
  · exact (count_line s _).trans (turnTo_line _ _)

theorem takeClassByte_line (b : Byte) : LineFootprint s (takeClassByte b s) := by
  unfold takeClassByte
  split
  · split_ifs
    · exact (count_line s _).trans (onAssembly_line _ _)
    · exact onAssembly_line s _
  · exact breakFrame_line s _

theorem finishFrame_line : LineFootprint s (finishFrame s) := by
  unfold finishFrame
  split_ifs
  · exact (onLine_line s).trans (turnTo_line _ _)
  · exact .refl s

theorem takeFieldByte_line (b : Byte) : LineFootprint s (takeFieldByte b s) := by
  unfold takeFieldByte
  split
  · exact onAssembly_line s _
  · split_ifs
    · exact breakFrame_line s _
    · exact onAssembly_line s _
  · split_ifs
    · exact onAssembly_line s _
    · exact onAssembly_line s _
    · exact (onAssembly_line s _).trans (finishFrame_line _)

theorem takeByte_line (b : Byte) : LineFootprint s (takeByte b s) := by
  unfold takeByte
  split
  · exact takeClassByte_line s b
  · exact takeFieldByte_line s b

theorem byteAfterSync_line (b : Byte) : LineFootprint s (byteAfterSync b s) := by
  unfold byteAfterSync
  split_ifs
  · exact (turnTo_line s _).trans (onAssembly_line _ _)
  · exact (turnTo_line s _).trans (takeByte_line _ b)

theorem assembleByte_line (b : Byte) : LineFootprint s (assembleByte b s) := by
  unfold assembleByte
  split_ifs
  · exact takeByte_line s _
  · exact (breakFrame_line s _).trans (byteAfterSync_line _ b)
  · exact onAssembly_line s _
  · exact takeByte_line s b

theorem skipByte_line (b : Byte) : LineFootprint s (skipByte b s) := by
  unfold skipByte
  split_ifs
  · exact onAssembly_line s _
  · exact byteAfterSync_line s b
  · exact onAssembly_line s _
  · exact .refl s

theorem readByte_line (b : Byte) : LineFootprint s (readByte b s) := by
  unfold readByte
  split
  · exact .refl s
  · split_ifs
    · exact turnTo_line s _
    · exact .refl s
  · exact assembleByte_line s b
  · exact skipByte_line s b

theorem framingError_line : LineFootprint s (framingError s) := by
  unfold framingError
  split
  · exact breakFrame_line s _
  all_goals exact .refl s

theorem receiverReads_line (levels : LineLevels) : LineFootprint s (receiverReads levels s) := by
  unfold receiverReads
  split_ifs
  · exact readByte_line s _
  · exact framingError_line s

theorem failAttempt_line (q : QueueId) : LineFootprint s (failAttempt q s) := by
  rcases failAttempt_cases q s with ⟨-, h⟩ | ⟨-, h⟩ <;> rw [h]
  · exact (onQueue_line s q failedQueue_length).trans (offLine_line _)
  · exact ((count_line s _).trans (onQueue_line _ q failedQueue_length)).trans (offLine_line _)

theorem loseAttempt_line (q : QueueId) : LineFootprint s (loseAttempt q s) :=
  (count_line s _).trans (failAttempt_line _ q)

theorem senderReads_line (levels : LineLevels) : LineFootprint s (senderReads levels s) := by
  rcases senderReads_cases levels s with h | ⟨x, -, -, h⟩ | ⟨x, -, -, h⟩ | ⟨x, -, -, h | h⟩ <;> rw [h]
  · exact .refl s
  · exact loseAttempt_line s _
  all_goals exact onSending_line s _

theorem suppressBy_line (f : Frame) : LineFootprint s (suppressBy f s) := by
  rcases suppressBy_cases f s with h | ⟨m, -, h⟩ <;> rw [h]
  · exact .refl s
  · exact onLine_line s (withdraw_sends s _)

theorem suppressBy_slots (f : Frame) : (suppressBy f s).line.slots = s.line.slots := by
  rcases suppressBy_cases f s with h | ⟨m, -, h⟩ <;> rw [h]
  rfl

theorem placeInSlot_line (x : RxSlot) (h : slotFree s = true) : LineFootprint s (placeInSlot x s) := by
  refine onLine_line s ⟨fun ⟨ht, hg, _, hd⟩ => ⟨ht, hg, ?_, fun hs => ?_⟩, fun _ => id⟩
  · show (s.line.slots ++ [x]).length ≤ _
    rw [List.length_append]
    exact of_decide_eq_true h
  · show s.line.slots ++ [x] ≠ []
    simp

theorem disposeGood_line (x : Completed) : LineFootprint s (disposeGood x s) := by
  rcases disposeGood_cases x s with h | h | ⟨c, -, hf, -, h⟩ | ⟨-, hf, -, h⟩ <;> rw [h]
  · exact .refl s
  · exact count_line s _
  · exact placeInSlot_line s _ hf
  · refine (suppressBy_line s _).trans (placeInSlot_line _ _ ?_)
    rwa [slotFree, suppressBy_slots]

theorem countGood_line : LineFootprint s (countGood s) :=
  (count_line s _).trans (withSilence_line _)

theorem disposeFrame_line (x : Completed) : LineFootprint s (disposeFrame x s) := by
  unfold disposeFrame
  split_ifs
  · exact .refl s
  · exact (countGood_line s).trans (disposeGood_line _ x)
  · exact count_line s _

theorem frameComplete_line : LineFootprint s (frameComplete s) := by
  unfold frameComplete
  split
  · exact .refl s
  · exact (onLine_line s).trans (disposeFrame_line _ _)

theorem byteOnLine_line : LineFootprint s (byteOnLine s) :=
  (frameComplete_line s).trans (onLine_line _ ⟨id, fun _ ⟨⟨ht, hg, hs, hw, hh, _⟩, hp⟩ =>
    ⟨⟨ht, hg, hs, hw, hh, rfl⟩, hp⟩⟩)

theorem byteReceived_line (levels : LineLevels) : LineFootprint s (byteReceived levels s) := by
  cases h : falseStart levels
  · rw [byteReceived_eq h]
    exact ((byteOnLine_line s).trans (senderReads_line _ _)).trans (receiverReads_line _ _)
  · rw [byteReceived_falseStart h]
    exact .refl s

theorem dropForSilence_line : LineFootprint s (dropForSilence s) := by
  unfold dropForSilence
  split_ifs
  · exact breakFrame_line s _
  · exact turnTo_line s _

theorem lineQuiet_line : LineFootprint s (lineQuiet s) := by
  unfold lineQuiet
  split_ifs
  · exact .refl s
  · exact ((frameComplete_line s).trans (onLine_line _)).trans (dropForSilence_line _)

theorem beginAttempt_line (q : QueueId) (f : TxFrame) (hl : s.listenOnly = false) :
    LineFootprint s (beginAttempt q f s) :=
  onLine_line s ⟨id, fun h => absurd (hl.symm.trans h) (by simp)⟩

theorem attemptGeneral_line (hl : s.listenOnly = false) : LineFootprint s (attemptGeneral s) := by
  unfold attemptGeneral
  split
  · exact beginAttempt_line s _ _ hl
  · exact .refl s

theorem withoutLostAnswers_line : LineFootprint s (withoutLostAnswers s) :=
  onQueue_line s .general (f := List.dropWhile (lostAnswer s.table))
    fun _ => (List.dropWhile_suffix _).length_le

/-- R190: only a station that may send begins an attempt. -/
theorem mayStart_mayReply (h : mayStart s = true) : s.listenOnly = false := by
  simp only [mayStart, Bool.and_eq_true, Bool.not_eq_true'] at h
  exact h.1.1

theorem attemptStart_line : LineFootprint s (attemptStart s) := by
  unfold attemptStart
  split_ifs with h
  · have hl := mayStart_mayReply s h
    split
    · exact beginAttempt_line s _ _ hl
    · exact (withoutLostAnswers_line s).trans (attemptGeneral_line _ hl)
  · exact .refl s

theorem arbitrationLoss_line : LineFootprint s (arbitrationLoss s) := by
  unfold arbitrationLoss
  split
  · split_ifs
    · exact loseAttempt_line s _
    · exact .refl s
  · exact .refl s

theorem holdOut_line : LineFootprint s (holdOut s) := by
  unfold holdOut
  split
  · split_ifs
    · exact failAttempt_line s _
    · exact .refl s
  · exact .refl s

theorem abandonFrame_line : LineFootprint s (abandonFrame s) := by
  rcases abandonFrame_cases s with h | ⟨x, -, -, ⟨-, h⟩ | ⟨-, h⟩⟩ <;> rw [h]
  · exact .refl s
  · exact loseAttempt_line s _
  · exact failAttempt_line s _

theorem attemptComplete_line : LineFootprint s (attemptComplete s) := by
  unfold attemptComplete
  split
  · rename_i x hx
    split_ifs
    · have hqueue := onQueue_line s x.queue (f := List.tail) fun fs => by simp
      have hoff := hqueue.trans (offLine_line _)
      exact { hoff with sends := ⟨hoff.sends.1, fun _ h => absurd (hx.symm.trans h.1.2.2.1) (by simp)⟩ }
    · exact .refl s
  · exact .refl s

/-- R186, R190: only a station that may send holds a hold byte. -/
theorem holdsByte_mayReply (h : holdsByte s = true) : s.listenOnly = false := by
  simp only [holdsByte, Bool.and_eq_true, Bool.not_eq_true'] at h
  exact h.1.1.2

theorem holdByte_line : LineFootprint s (holdByte s) := by
  have hhold : ∀ u : State, u.listenOnly = false → LineFootprint u
      (u.onLine fun l => { l with holding := true, holdDrive := true }) := fun u hu =>
    onLine_line u ⟨id, fun h => absurd (hu.symm.trans h) (by simp)⟩
  unfold holdByte
  split_ifs with h
  · exact hhold s (holdsByte_mayReply s h)
  · exact (count_line s _).trans (hhold _ (holdsByte_mayReply s h))
  · exact onLine_line s ⟨id, fun _ ⟨⟨ht, hg, hs, hw, hh, _⟩, hp⟩ =>
      ⟨⟨ht, hg, hs, hw, hh, rfl⟩, hp⟩⟩

theorem freeSlot_sends : sendsKept s.listenOnly s.outbox (freeSlot s).outbox := by
  refine ⟨fun ⟨ht, hg, hs, _⟩ => ⟨ht, hg, ?_, fun h => nomatch h⟩, fun _ => id⟩
  have htail : s.line.slots.tail.length ≤ s.line.slots.length := by simp
  exact htail.trans hs

theorem freeSlot_line : LineFootprint s (freeSlot s) := onLine_line s (freeSlot_sends s)

theorem dispatchEnd_line : LineFootprint s (dispatchEnd s) := by
  rcases dispatchEnd_cases s with ⟨-, h⟩ | ⟨-, h⟩ <;> rw [h]
  · exact .refl s
  · exact freeSlot_line s

end Line

end Sys2Proof.Machine
end

section
/-!
PROOFS. What a whole command leaves alone, and the invariants that follow from it with little more: the
straps, the queue of waiting commands, the lamp power, and the counts.
-/
namespace Sys2Proof.Machine

/-! ### Footprints of whole commands -/

/-- t is s but for the blocks that messages, keys and the tape reach: the reset pin, the straps, the tick
count, the lamp driver, the line but for its slots, queues and dispatch, the line-silence timer, the fault
lamp and the waiting commands are kept. -/
structure BlocksFootprint (s t : State) : Prop where
  resetAsserted : t.resetAsserted = s.resetAsserted
  straps : t.straps = s.straps
  tickCount : t.tickCount = s.tickCount
  lamps : t.lamps = s.lamps
  line : t.line = { s.line with
    slots := t.line.slots, dispatching := t.line.dispatching, tapeQueue := t.line.tapeQueue,
    generalQueue := t.line.generalQueue }
  lineSilence : t.lineSilence = s.lineSilence
  faultLamp : t.faultLamp = s.faultLamp
  pending : t.pending = s.pending
  counts : countsKept s.tallies t.tallies
  sends : sendsKept s.listenOnly s.outbox t.outbox

theorem BlocksFootprint.refl (s : State) : BlocksFootprint s s := by constructor <;> rfl

theorem BlocksFootprint.trans {s t u : State} (h : BlocksFootprint s t) (k : BlocksFootprint t u) :
    BlocksFootprint s u where
  resetAsserted := k.resetAsserted.trans h.resetAsserted
  straps := k.straps.trans h.straps
  tickCount := k.tickCount.trans h.tickCount
  lamps := k.lamps.trans h.lamps
  line := by rw [k.line, h.line]
  lineSilence := k.lineSilence.trans h.lineSilence
  faultLamp := k.faultLamp.trans h.faultLamp
  pending := k.pending.trans h.pending
  counts := h.counts.trans k.counts
  sends := h.sends.trans (listenOnly_of_straps h.straps ▸ k.sends)

theorem DeskFootprint.blocks {s t : State} (h : DeskFootprint s t) : BlocksFootprint s t :=
  ⟨h.resetAsserted, h.straps, h.tickCount, h.lamps, by rw [h.line], h.lineSilence, h.faultLamp,
    h.pending, h.counts, h.sends⟩

theorem TapeFootprint.blocks {s t : State} (h : TapeFootprint s t) : BlocksFootprint s t :=
  ⟨h.resetAsserted, h.straps, h.tickCount, h.lamps, by rw [h.line], h.lineSilence, h.faultLamp,
    h.pending, h.counts, h.sends⟩

section Messages
variable (s : State)

theorem applyPrint_blocks (m : PrintMsg) : BlocksFootprint s (applyPrint m s) :=
  ((tablePrint_desk s m).trans (firePrint_desk _ m)).blocks.trans (composerPrint_tape _ m).blocks

theorem applyStatus_blocks (m : StatusMsg) : BlocksFootprint s (applyStatus m s) :=
  (setRecordState_desk s _ _).blocks.trans (composerStatus_tape _ m).blocks

theorem applyCancel_blocks (m : CancelMsg) : BlocksFootprint s (applyCancel m s) :=
  (tableCancel_desk s m).blocks.trans (composerCancel_tape _ m).blocks

theorem resetTerminal_desk (t : Fin 4) : DeskFootprint s (resetTerminal t s) := by
  unfold resetTerminal
  split_ifs
  · exact onTerm_desk s _ _
  · exact .refl s

theorem resetTerminals_desk : DeskFootprint s (resetTerminals s) :=
  (((resetTerminal_desk s 0).trans (resetTerminal_desk _ 1)).trans (resetTerminal_desk _ 2)).trans
    (resetTerminal_desk _ 3)

theorem flushQueues_tape : TapeFootprint s (flushQueues s) := by
  have hsize : ∀ (b : Bool) (n : Nat) (q : List TxFrame), q.length ≤ n →
      (if b then q.take 1 else []).length ≤ n := fun b n q hq => by
    cases b
    · exact Nat.zero_le n
    · exact (List.length_take_le' 1 q).trans hq
  have hnil : ∀ (b : Bool) (q : List TxFrame), q = [] → (if b then q.take 1 else []) = [] :=
    fun b q hq => by rw [hq, List.take_nil, ite_self]
  exact { TapeFootprint.refl s with
    line := rfl
    sends := ⟨fun ⟨ht, hg, hs⟩ => ⟨hsize _ _ _ ht, hsize _ _ _ hg, hs⟩,
      fun _ ⟨⟨ht, hg, hs⟩, hp⟩ => ⟨⟨hnil _ _ ht, hnil _ _ hg, hs⟩, hp⟩⟩ }

theorem requestAtZero_tape : TapeFootprint s (requestAtZero s) := by
  unfold requestAtZero
  split_ifs
  · exact requestPace_tape s
  · exact .refl s

theorem dayStart_blocks : BlocksFootprint s (dayStart s) := by
  have hboard : DeskFootprint s ((s.withTable []).withCells (s.cells.map CellRecord.dayStart)) := by
    constructor <;> rfl
  exact ((((hboard.blocks.trans (onComposer_tape _ fun _ => Composer.atReset).blocks).trans
    (resetTerminals_desk _).blocks).trans (flushQueues_tape _).blocks).trans
    (onCrawl_tape _ (.inr rfl)).blocks).trans (requestAtZero_tape _).blocks

/-- R192: a dispatch begins with the frame of the oldest slot. -/
theorem beginDispatch_blocks {c : MsgClass} {f : Frame} (h : s.offers c f = true) :
    BlocksFootprint s (beginDispatch s) := by
  obtain ⟨-, hslot⟩ := (offers_iff c f s).1 h
  have hne : s.line.slots ≠ [] := fun e => by simp [e] at hslot
  exact { BlocksFootprint.refl s with
    line := rfl, sends := ⟨fun ⟨ht, hg, hs, _⟩ => ⟨ht, hg, hs, fun _ => hne⟩, fun _ => id⟩ }

theorem freeSlot_blocks : BlocksFootprint s (freeSlot s) :=
  { BlocksFootprint.refl s with line := rfl, sends := freeSlot_sends s }

/-- A handled frame reaches no more than the blocks, where its effect does not. -/
theorem handled_blocks {c : MsgClass} {f : Frame} {listed : Bool} {effect : Option (State → State)}
    (h : ∀ g, effect = some g → listed = true → BlocksFootprint s.dispatched (g s.dispatched)) :
    BlocksFootprint s (handled c f listed effect s) :=
  handled_keeps (P := BlocksFootprint s) (.refl s) (freeSlot_blocks s)
    ((count_desk s _).blocks.trans (freeSlot_blocks _))
    fun g hg ho hl => (beginDispatch_blocks s ho).trans (h g hg hl)

/-- A message whose body passes its checks has the effect of its fields. -/
theorem handled_map_blocks {α : Type} {c : MsgClass} {f : Frame} {listed : Bool} {o : Option α}
    {effect : α → State → State} (h : ∀ a u, BlocksFootprint u (effect a u)) :
    BlocksFootprint s (handled c f listed (o.map effect) s) := by
  refine handled_blocks s fun g hg _ => ?_
  obtain ⟨a, -, rfl⟩ := Option.map_eq_some_iff.1 hg
  exact h a _

theorem isOwnNumber_mayReply {d : Byte} (h : s.isOwnNumber d = true) : s.listenOnly = false := by
  unfold State.isOwnNumber at h
  split at h
  · rename_i n hn
    simp [State.listenOnly, hn]
  · cases h

theorem coastingExpiry_pendingPace (c : Crawl) : c.coastingExpiry.pendingPace = c.pendingPace := by
  unfold Crawl.coastingExpiry
  split
  · split_ifs <;> rfl
  · rfl

theorem waitingExpiry_pendingPace (c : Crawl) : c.waitingExpiry.pendingPace = c.pendingPace := by
  unfold Crawl.waitingExpiry
  split
  · split_ifs <;> rfl
  · rfl

theorem silenceTick_pendingPace (c : Crawl) : c.silenceTick.pendingPace = c.pendingPace := by
  unfold Crawl.silenceTick Crawl.countSilence
  rw [coastingExpiry_pendingPace, waitingExpiry_pendingPace]
  split
  · split_ifs <;> rfl
  · rfl

/-- The commands that reach the lamp driver or light the fault lamp. -/
def reachesLamps (c : Instr) : Prop :=
  c = .floorTick ∨ (∃ r0 r1 r2 r3, c = .refreshFrame r0 r1 r2 r3) ∨ c = .warmUpPhase ∨
    c = .lineSilenceTimeout

/-- A command that does not reach the lamps reaches the blocks alone, or the line interface with its
tallies and its silence timer alone. -/
theorem effectOf_blocks_or_line {c : Instr} (hc : ¬reachesLamps c) :
    BlocksFootprint s (effectOf c s) ∨ LineFootprint s (effectOf c s) := by
  cases c with
  | resetAssert | powerOnReset => exact .inl (.refl s)
  | floorTick => exact absurd (.inl rfl) hc
  | refreshFrame => exact absurd (.inr (.inl ⟨_, _, _, _, rfl⟩)) hc
  | warmUpPhase => exact absurd (.inr (.inr (.inl rfl))) hc
  | lineSilenceTimeout => exact absurd (.inr (.inr (.inr rfl))) hc
  | patternEnd cell => exact .inl (onCells_desk s _ _).blocks
  | debounceChange t pos => exact .inl (debouncePosition_scan t s _).blocks
  | letterKey | digitKey | quoteKey | clearKey | rubKey | watchKey | unwatchKey | nextKey
  | limitKey | fractionKey => exact .inl (offerKey_scan _ s _).blocks
  | beeperExpiry | messageExpiry => exact .inl (onTerm_desk s _ _).blocks
  | crawlStep => exact .inl (crawlStep_tape s).blocks
  | pendingPaceQueued => exact .inl (meetPendingPace_tape s).blocks
  | print f => exact .inl (handled_map_blocks s fun m u => applyPrint_blocks u m)
  | quote f => exact .inl (handled_map_blocks s fun m u => (tableQuote_desk u m).blocks)
  | status f => exact .inl (handled_map_blocks s fun m u => applyStatus_blocks u m)
  | cancel f => exact .inl (handled_map_blocks s fun m u => applyCancel_blocks u m)
  | plan f => exact .inl (handled_map_blocks s fun m u => (tablePlan_desk u m).blocks)
  | dayStart f => exact .inl (handled_map_blocks s fun _ u => dayStart_blocks u)
  | ask f => exact .inl (handled_map_blocks s fun m u => (takeAsk_desk u _ m).blocks)
  | answer f =>
    simp only [effectOf]
    split_ifs
    · exact .inl (.refl s)
    · exact .inl (handled_map_blocks s fun m u => (takeAnswer_desk u m).blocks)
  | answerSnoop f =>
    simp only [effectOf]
    split_ifs
    · exact .inl (handled_map_blocks s fun m u => (suppress_desk u _ m).blocks)
    · exact .inl (.refl s)
  | handoff f =>
    refine .inl (handled_blocks s fun g hg _ => ?_)
    unfold handoffEffect at hg
    split at hg
    · split_ifs at hg
      cases hg
      exact (takeHandoff_tape _ _).blocks
    · cases hg
  | pace f => exact .inl (handled_map_blocks s fun m u => (crawlPace_tape u m).blocks)
  | tallyQuery f =>
    refine .inl (handled_blocks s fun g hg hl => ?_)
    obtain ⟨clear, -, rfl⟩ := Option.map_eq_some_iff.1 hg
    exact (takeTallyQuery_desk s.dispatched _ _ (isOwnNumber_mayReply s hl)).blocks
  | tally f => exact .inl (handled_blocks (effect := none) s fun _ hg _ => nomatch hg)
  | printTake => exact .inl (printTake_tape s).blocks
  | cancelTake => exact .inl (cancelTake_tape s).blocks
  | statusTake => exact .inl (statusTake_tape s).blocks
  | idleTimerExpiry =>
    simp only [effectOf]
    split_ifs
    · exact .inl (onComposer_tape s _).blocks
    · exact .inl (.refl s)
  | idleDecay => exact .inl (idleDecay_tape s).blocks
  | silenceCoasting => exact .inl (onCrawl_tape s (.inl (coastingExpiry_pendingPace _))).blocks
  | silenceWaiting => exact .inl (onCrawl_tape s (.inl (waitingExpiry_pendingPace _))).blocks
  | askTimeout t => exact .inl (timeoutAsk_scan t s).blocks
  | byteReceived bits stop => exact .inr (byteReceived_line s _)
  | lineQuiet => exact .inr (lineQuiet_line s)
  | attemptStart => exact .inr (attemptStart_line s)
  | arbitrationLoss => exact .inr (arbitrationLoss_line s)
  | holdByte => exact .inr (holdByte_line s)
  | holdOut => exact .inr (holdOut_line s)
  | frameAbandoned => exact .inr (abandonFrame_line s)
  | attemptComplete => exact .inr (attemptComplete_line s)
  | frameComplete => exact .inr (frameComplete_line s)
  | dispatchEnd => exact .inr (dispatchEnd_line s)

end Messages

/-! ### The floor tick and the refresh frame, part by part -/

section Parts
variable (s : State)

theorem tickTerminals_desk : DeskFootprint s (tickTerminals s) := by constructor <;> rfl

theorem timeoutAsks_desk : DeskFootprint s (timeoutAsks s) :=
  (((timeoutAsk_scan 0 s).toDeskFootprint.trans (timeoutAsk_scan 1 _).toDeskFootprint).trans
    (timeoutAsk_scan 2 _).toDeskFootprint).trans (timeoutAsk_scan 3 _).toDeskFootprint

theorem lightAtLimit_eq :
    lightAtLimit s = s.withSilence s.lineSilence (s.faultLamp || decide (s.lineSilence = 80)) := by
  unfold lightAtLimit
  split_ifs with h
  · simp [h]
  · simp [h, State.withSilence]

/-- R205: the line-silence timer and the fault lamp after a floor tick. -/
theorem lineSilenceTick_eq : lineSilenceTick s = s.withSilence
    (if s.lineSilence < 80 then s.lineSilence + 1 else s.lineSilence)
    (s.faultLamp || decide (79 ≤ s.lineSilence ∧ s.lineSilence ≤ 80)) := by
  unfold lineSilenceTick
  rw [lightAtLimit_eq]
  split_ifs with h
  · have : (s.lineSilence + 1 = 80) ↔ (79 ≤ s.lineSilence ∧ s.lineSilence ≤ 80) := by omega
    simp [State.withSilence, this]
  · have : (s.lineSilence = 80) ↔ (79 ≤ s.lineSilence ∧ s.lineSilence ≤ 80) := by omega
    simp [State.withSilence, this]

/-- The parts of a floor tick that set the tick count, the ages, the stencils and the warm-up count. -/
def tickBoard (s : State) : State := warmUpTick (shiftStencils (ageRecords (countTick s)))

theorem floorTick_eq : floorTick s = lineSilenceTick (timeoutAsks (tickTerminals (silenceTick
    (idleTick (tickBoard s))))) := rfl

/-- From the board's part on, a floor tick reaches the blocks and then the line-silence timer. -/
theorem floorTick_blocks : BlocksFootprint (tickBoard s)
    (timeoutAsks (tickTerminals (silenceTick (idleTick (tickBoard s))))) :=
  ((((idleTick_tape _).trans (onCrawl_tape _ (.inl (silenceTick_pendingPace _)))).blocks.trans
    (tickTerminals_desk _).blocks).trans
    (timeoutAsks_desk _).blocks)

theorem floorTick_straps : (floorTick s).straps = s.straps := by
  rw [floorTick_eq, lineSilenceTick_eq]
  exact (floorTick_blocks s).straps

theorem floorTick_pending : (floorTick s).pending = s.pending := by
  rw [floorTick_eq, lineSilenceTick_eq]
  exact (floorTick_blocks s).pending

theorem floorTick_resetAsserted : (floorTick s).resetAsserted = s.resetAsserted := by
  rw [floorTick_eq, lineSilenceTick_eq]
  exact (floorTick_blocks s).resetAsserted

theorem floorTick_lamps : (floorTick s).lamps = (warmUpTick s).lamps := by
  rw [floorTick_eq, lineSilenceTick_eq]
  exact (floorTick_blocks s).lamps

theorem floorTick_lineSilence : (floorTick s).lineSilence =
    if s.lineSilence < 80 then s.lineSilence + 1 else s.lineSilence := by
  rw [floorTick_eq, lineSilenceTick_eq, State.withSilence_lineSilence,
    (floorTick_blocks s).lineSilence]
  rfl

theorem floorTick_faultLamp : (floorTick s).faultLamp =
    (s.faultLamp || decide (79 ≤ s.lineSilence ∧ s.lineSilence ≤ 80)) := by
  rw [floorTick_eq, lineSilenceTick_eq, State.withSilence_faultLamp,
    (floorTick_blocks s).lineSilence, (floorTick_blocks s).faultLamp]
  rfl

theorem floorTick_counts : countsKept s.tallies (floorTick s).tallies := by
  rw [floorTick_eq, lineSilenceTick_eq]
  exact (floorTick_blocks s).counts

theorem composeDisplay_desk (t : Fin 4) : DeskFootprint s (composeDisplay t s) := by
  unfold composeDisplay
  split_ifs
  · exact onTerm_desk s _ _
  · exact .refl s

theorem composeDisplays_desk : DeskFootprint s (composeDisplays s) :=
  (((composeDisplay_desk s 0).trans (composeDisplay_desk _ 1)).trans (composeDisplay_desk _ 2)).trans
    (composeDisplay_desk _ 3)

theorem scanKeys_desk (r0 r1 r2 r3 : BitVec 48) : DeskFootprint s (scanKeys r0 r1 r2 r3 s) :=
  (((scanTerminal_scan 0 s r0).toDeskFootprint.trans (scanTerminal_scan 1 _ r1).toDeskFootprint).trans
    (scanTerminal_scan 2 _ r2).toDeskFootprint).trans (scanTerminal_scan 3 _ r3).toDeskFootprint

/-- After the latch a refresh frame reaches the desk alone. -/
theorem refreshFrame_desk (r0 r1 r2 r3 : BitVec 48) :
    DeskFootprint (latchFrame s) (refreshFrame r0 r1 r2 r3 s) :=
  (composeDisplays_desk _).trans (scanKeys_desk _ _ _ _ _)

end Parts

/-! ### The straps and the waiting commands (R197, R198) -/

theorem requestAtZero_straps (s : State) : (requestAtZero s).straps = s.straps :=
  (requestAtZero_tape s).straps

/-- R197: nothing in service changes the straps or the queue of waiting commands. -/
theorem effectOf_straps_pending (c : Instr) (s : State) :
    (effectOf c s).straps = s.straps ∧ (effectOf c s).pending = s.pending := by
  by_cases hc : reachesLamps c
  · rcases hc with rfl | ⟨r0, r1, r2, r3, rfl⟩ | rfl | rfl
    · exact ⟨floorTick_straps s, floorTick_pending s⟩
    · exact ⟨(refreshFrame_desk s r0 r1 r2 r3).straps, (refreshFrame_desk s r0 r1 r2 r3).pending⟩
    · exact ⟨rfl, rfl⟩
    · simp [effectOf, lightAtLimit_eq]
  · rcases effectOf_blocks_or_line s hc with h | h
    · exact ⟨h.straps, h.pending⟩
    · exact ⟨h.straps, h.pending⟩

/-- Settles O2: every command answers a next state, by the four things it can be. -/
theorem everyCommandCompletes : Obligations.EveryCommandCompletes := by
  refine ⟨fun c s => ?_, fun c s hs hr hp => ?_⟩
  · rcases exec_cases c s with ⟨-, h⟩ | ⟨pins, -, h⟩ | ⟨-, h⟩ | ⟨-, h⟩
    · exact ⟨_, h, rfl⟩
    · exact ⟨_, h, (requestAtZero_tape _).pending⟩
    · exact ⟨_, h, rfl⟩
    · exact ⟨_, h, (effectOf_straps_pending c s).2⟩
  · rw [exec_eq_inService s hr hp, inService_of_reset hs]

/-- R198: the ribbon a strap names. -/
theorem ribbonOf_eq_some (v : BitVec 3) (r : Fin 4) : ribbonOf v = some r ↔ v.toNat = r.val + 1 := by
  revert v r
  decide

theorem stationOf_eq (v : BitVec 6) :
    stationOf v = if v = 0 ∨ v = 63 then none else some v.toNat := by
  revert v
  decide

theorem bitTimeOf_eq (v : BitVec 2) : bitTimeOf v = if v = 0 then 4 else if v = 2 then 1 else 2 := by
  revert v
  decide

/-- Settles O3: the straps of a release are the pins as read, and no other command writes straps. -/
theorem strapsReadOnlyAtRelease : Obligations.StrapsReadOnlyAtRelease := by
  refine ⟨fun pins s => ⟨_, rfl, ?_⟩, fun c s t hp ht => ?_⟩
  · have hstraps : (powerOnReset pins s).straps = readStraps pins := requestAtZero_straps _
    rw [hstraps]
    exact ⟨stationOf_eq _, bitTimeOf_eq _, ribbonOf_eq_some _, rfl, rfl, rfl, rfl, rfl, rfl⟩
  · rcases exec_cases c s with ⟨-, h⟩ | ⟨pins, hc, -⟩ | ⟨-, h⟩ | ⟨-, h⟩
    · rw [h, Host.Outcome.next.injEq] at ht
      rw [← ht]
      rfl
    · exact absurd hc (hp pins)
    · rw [h, Host.Outcome.next.injEq] at ht
      rw [ht]
    · rw [h, Host.Outcome.next.injEq] at ht
      rw [← ht]
      exact (effectOf_straps_pending c s).1

/-! ### The lamp power (R123, R124, R128) -/

theorem lampsWithinBudget_congr {s t : State} (hs : t.straps = s.straps) (hl : t.lamps = s.lamps)
    (h : lampsWithinBudget s) : lampsWithinBudget t := by
  unfold lampsWithinBudget at *
  rwa [hs, hl]

/-- R124: the warm-up never takes the effective budget above the strapped one. -/
theorem budgetAt_le (budget warmUp : Nat) : budgetAt budget warmUp ≤ budget := by
  unfold budgetAt
  split_ifs <;> omega

theorem latchFrame_lampsWithinBudget {s : State} (h : lampsWithinBudget s) :
    lampsWithinBudget (latchFrame s) := by
  obtain ⟨hbudget, hwarm, heff, -⟩ := h
  refine ⟨hbudget, hwarm, heff, fun r hr => ?_⟩
  obtain rfl := Option.some.inj hr
  refine ⟨frameResult_drawn_le _ _ _, ?_⟩
  show s.lamps.effective ≤ s.straps.budget
  rw [heff]
  exact budgetAt_le _ _

theorem warmUpTick_lampsWithinBudget {s : State} (h : lampsWithinBudget s) :
    lampsWithinBudget (warmUpTick s) := by
  obtain ⟨hbudget, hwarm, -, hresult⟩ := h
  refine ⟨hbudget, ?_, rfl, hresult⟩
  show (if s.lamps.warmUp < 64 then s.lamps.warmUp + 1 else s.lamps.warmUp) ≤ 64
  split_ifs <;> omega

theorem effectOf_lampsWithinBudget (c : Instr) {s : State} (h : lampsWithinBudget s) :
    lampsWithinBudget (effectOf c s) := by
  by_cases hc : reachesLamps c
  · rcases hc with rfl | ⟨r0, r1, r2, r3, rfl⟩ | rfl | rfl
    · exact lampsWithinBudget_congr (s := warmUpTick s) (floorTick_straps s) (floorTick_lamps s)
        (warmUpTick_lampsWithinBudget h)
    · have hdesk := refreshFrame_desk s r0 r1 r2 r3
      exact lampsWithinBudget_congr hdesk.straps hdesk.lamps (latchFrame_lampsWithinBudget h)
    · obtain ⟨hbudget, hwarm, -, hresult⟩ := h
      exact ⟨hbudget, hwarm, rfl, hresult⟩
    · exact lampsWithinBudget_congr (by simp [effectOf, lightAtLimit_eq])
        (by simp [effectOf, lightAtLimit_eq]) h
  · rcases effectOf_blocks_or_line s hc with hf | hf
    · exact lampsWithinBudget_congr hf.straps hf.lamps h
    · exact lampsWithinBudget_congr hf.straps hf.lamps h

/-- Settles O13: only the release, the latch and the warm-up write what the law is about. -/
theorem stepKeepsLampsWithinBudget : Obligations.StepKeepsLampsWithinBudget := by
  intro s t h hst
  refine step_keeps (P := lampsWithinBudget) (fun _ _ h => h) (fun s h => ?_) (fun pins s _ => ?_)
    (fun s _ h => ?_) (fun c s _ h => effectOf_lampsWithinBudget c h) h hst
  · obtain ⟨hbudget, hwarm, heff, -⟩ := h
    exact ⟨hbudget, hwarm, heff, fun r hr => nomatch hr⟩
  · have hzero := requestAtZero_tape (s.powerOn (readStraps pins))
    refine lampsWithinBudget_congr hzero.straps hzero.lamps ⟨?_, Nat.zero_le _, rfl,
      fun r hr => nomatch hr⟩
    show 1024 ≤ 1024 * (pins.budget.toNat + 1)
    omega
  · exact lampsWithinBudget_congr (timerClock_tape s).straps (timerClock_tape s).lamps h

/-! ### The counts (R202, R205) -/

/-- The law of the counts in service, over what it is about. -/
theorem countsInRange_of {s t : State} (h : countsInRange s) (hcounts : countsKept s.tallies t.tallies)
    (hsilence : t.lineSilence ≤ 80)
    (hlamp : t.faultLamp = true ↔ t.lineSilence = 80 ∨ t.resetAsserted = true) : countsInRange t :=
  ⟨fun k => hcounts k (h.1 k), hsilence, hlamp⟩

theorem countsInRange_blocks {s t : State} (h : countsInRange s) (hf : BlocksFootprint s t) :
    countsInRange t := by
  obtain ⟨-, hsilence, hlamp⟩ := id h
  refine countsInRange_of h hf.counts ?_ ?_
  · rwa [hf.lineSilence]
  · rwa [hf.lineSilence, hf.faultLamp, hf.resetAsserted]

theorem countsInRange_line {s t : State} (hr : s.resetAsserted = false) (h : countsInRange s)
    (hf : LineFootprint s t) : countsInRange t := by
  obtain ⟨-, hsilence, hlamp⟩ := id h
  rcases hf.silence with ⟨hn, hl⟩ | ⟨hn, hl⟩
  · refine countsInRange_of h hf.counts ?_ ?_
    · rwa [hn]
    · rwa [hn, hl, hf.resetAsserted]
  · refine countsInRange_of h hf.counts (by omega) ?_
    simp [hn, hl, hf.resetAsserted, hr]

theorem effectOf_countsInRange (c : Instr) {s : State} (hr : s.resetAsserted = false)
    (h : countsInRange s) : countsInRange (effectOf c s) := by
  obtain ⟨-, hsilence, hlamp⟩ := id h
  simp only [hr, Bool.false_eq_true, or_false] at hlamp
  by_cases hc : reachesLamps c
  · rcases hc with rfl | ⟨r0, r1, r2, r3, rfl⟩ | rfl | rfl
    · refine countsInRange_of h (floorTick_counts s) ?_ ?_ <;> simp only [effectOf]
      · rw [floorTick_lineSilence]
        split_ifs <;> omega
      · rw [floorTick_lineSilence, floorTick_faultLamp, floorTick_resetAsserted, hr]
        simp only [Bool.or_eq_true, hlamp, decide_eq_true_eq, Bool.false_eq_true, or_false]
        split_ifs <;> omega
    · exact countsInRange_blocks (s := latchFrame s) h (refreshFrame_desk s r0 r1 r2 r3).blocks
    · exact h
    · refine countsInRange_of h ?_ ?_ ?_ <;> simp only [effectOf, lightAtLimit_eq]
      · exact .refl _
      · exact hsilence
      · simp [hr, hlamp]
  · rcases effectOf_blocks_or_line s hc with hf | hf
    · exact countsInRange_blocks h hf
    · exact countsInRange_line hr h hf

/-- Settles O7: a tally only rises through `saturate`, and the lamp is written with the timer. -/
theorem stepKeepsCounts : Obligations.StepKeepsCounts := by
  intro s t h hst
  refine step_keeps (P := countsInRange) (fun _ _ h => h) (fun s h => ?_) (fun pins s _ => ?_)
    (fun s _ h => countsInRange_blocks h (timerClock_tape s).blocks)
    (fun c s hr h => effectOf_countsInRange c hr h) h hst
  · obtain ⟨hcounts, hsilence, -⟩ := h
    exact ⟨hcounts, hsilence, by simp [assertReset]⟩
  · have hstart : countsInRange (s.powerOn (readStraps pins)) := by
      refine ⟨fun k => ?_, le_rfl, ?_⟩
      · cases k <;> exact Nat.zero_le _
      · simp [State.powerOn, State.reset]
    exact countsInRange_blocks hstart (requestAtZero_tape _).blocks

end Sys2Proof.Machine
end

section
/-!
PROOFS. The invariants of the line and the tape: a listen-only station's silence (R190), and every queue,
slot and list within its size (R64, R81, R99, R184, R191).
-/
namespace Sys2Proof.Machine

/-! ### What every command leaves for the line (R184, R190, R191) -/

theorem lightAtLimit_outbox (s : State) : (lightAtLimit s).outbox = s.outbox := by
  rw [lightAtLimit_eq]
  rfl

theorem floorTick_sends (s : State) : sendsKept s.listenOnly s.outbox (floorTick s).outbox := by
  rw [floorTick_eq, lineSilenceTick_eq]
  exact (floorTick_blocks s).sends

theorem effectOf_sends (c : Instr) (s : State) :
    sendsKept s.listenOnly s.outbox (effectOf c s).outbox := by
  by_cases hc : reachesLamps c
  · rcases hc with rfl | ⟨r0, r1, r2, r3, rfl⟩ | rfl | rfl
    · exact floorTick_sends s
    · exact (refreshFrame_desk s r0 r1 r2 r3).sends
    · exact .refl _ _
    · rw [effectOf, lightAtLimit_outbox]
  · rcases effectOf_blocks_or_line s hc with h | h
    · exact h.sends
    · exact h.sends

theorem effectOf_listenOnly (c : Instr) (s : State) : (effectOf c s).listenOnly = s.listenOnly :=
  listenOnly_of_straps (effectOf_straps_pending c s).1

/-! ### Listen-only stations (R190) -/

theorem listenOnlySilent_iff (s : State) : listenOnlySilent s ↔
    (s.listenOnly = true → s.line.silent ∧ s.crawl.pendingPace = false) := by
  unfold listenOnlySilent Line.silent
  refine imp_congr_right fun _ => ?_
  simp only [and_assoc]

theorem listenOnlySilent_of_sends {s t : State} (hl : t.listenOnly = s.listenOnly)
    (h : sendsKept s.listenOnly s.outbox t.outbox) (hs : listenOnlySilent s) :
    listenOnlySilent t := by
  rw [listenOnlySilent_iff] at *
  intro ht
  rw [hl] at ht
  exact h.2 ht (hs ht)

/-- R186, R190: a station that sends nothing and holds nothing does not drive the line. -/
theorem drivesLine_of_silent {s : State} (h : s.line.silent) : drivesLine s = false := by
  obtain ⟨-, -, hsending, -, -, hdrive⟩ := h
  have hbyte : drivenByte s = none := by rw [drivenByte, hsending]; rfl
  have hlevels : drivenLevels s = floating := by
    unfold drivenLevels
    rw [hbyte, hdrive]
    exact ite_self _
  simp [drivesLine, hlevels]

theorem powerOn_silent (p : Straps) (s : State) : (s.powerOn p).line.silent :=
  ⟨rfl, rfl, rfl, rfl, rfl, rfl⟩

theorem powerOn_pendingPace (p : Straps) (s : State) : (s.powerOn p).crawl.pendingPace = false := by
  show (Crawl.powerOn p).pendingPace = false
  unfold Crawl.powerOn
  split
  · rfl
  · split_ifs <;> rfl

/-- Settles O14: by what every command leaves for the line. -/
theorem stepKeepsListenOnlySilent : Obligations.StepKeepsListenOnlySilent := by
  intro s t h hst
  have ht : listenOnlySilent t := by
    refine step_keeps (P := listenOnlySilent) (fun _ _ h => h) (fun s h => ?_) (fun pins s _ => ?_)
      (fun s _ h => ?_) (fun c s _ h => ?_) h hst
    · rw [listenOnlySilent_iff] at *
      intro hl
      obtain ⟨⟨htape, hgeneral, -, hwait, hhold, -⟩, hp⟩ := h hl
      exact ⟨⟨htape, hgeneral, rfl, hwait, hhold, rfl⟩, hp⟩
    · have hzero := requestAtZero_tape (s.powerOn (readStraps pins))
      refine listenOnlySilent_of_sends (listenOnly_of_straps hzero.straps) hzero.sends ?_
      rw [listenOnlySilent_iff]
      exact fun _ => ⟨powerOn_silent _ s, powerOn_pendingPace _ s⟩
    · exact listenOnlySilent_of_sends (listenOnly_of_straps (timerClock_tape s).straps)
        (timerClock_tape s).sends h
    · exact listenOnlySilent_of_sends (effectOf_listenOnly c s) (effectOf_sends c s) h
  exact ⟨ht, fun hl => drivesLine_of_silent ((listenOnlySilent_iff t).1 ht hl).1⟩

/-! ### The composer's lists and the hold (R64, R81, R99) -/

/-- The print queue, the recent-tape list and the hold are within their sizes. -/
def tapeWithin (s : State) : Prop :=
  s.composer.printQueue.length ≤ Config.printQueueSize ∧
  s.composer.recent.length ≤ Config.recentSize ∧ s.crawl.hold.length ≤ Config.holdSize

theorem tapeWithin_congr {s t : State} (hcomposer : t.composer = s.composer)
    (hcrawl : t.crawl = s.crawl) (h : tapeWithin s) : tapeWithin t := by
  unfold tapeWithin at *
  rwa [hcomposer, hcrawl]

theorem tapeWithin_of_hold {s t : State} (hcomposer : t.composer = s.composer)
    (hhold : t.crawl.hold.length ≤ s.crawl.hold.length) (h : tapeWithin s) : tapeWithin t := by
  obtain ⟨hq, hr, hh⟩ := h
  unfold tapeWithin
  rw [hcomposer]
  exact ⟨hq, hr, hhold.trans hh⟩

/-- R94 to R96: the crawl unit at a step, before its hold is judged. -/
def Crawl.stepped (head : Bool) (c : Crawl) : Crawl :=
  if head then { c.pass with stepCount := c.stepCount + 1 } else c.pass.advance

theorem crawlStep_of_moving {s : State} (h : s.moving = true) :
    crawlStep s = paceAtMultiple (judgeHold (s.onCrawl (Crawl.stepped s.isHead))) := if_pos h

theorem crawlStep_of_still {s : State} (h : s.moving = false) : crawlStep s = s :=
  if_neg (by simp [h])

section TapeWithin
variable {s : State} (h : tapeWithin s)
include h

theorem enqueueItem_tapeWithin (i : TapeItem) : tapeWithin (enqueueItem i s) := by
  obtain ⟨hq, hr, hh⟩ := h
  rcases enqueueItem_cases i s with ⟨hlt, e⟩ | ⟨-, e⟩ <;> rw [e]
  · refine ⟨?_, hr, hh⟩
    show (s.composer.printQueue ++ [i]).length ≤ _
    rw [List.length_append]
    exact hlt
  · exact ⟨hq, hr, hh⟩

theorem composerPrint_tapeWithin (m : PrintMsg) : tapeWithin (composerPrint m s) := by
  unfold composerPrint
  split_ifs
  · exact enqueueItem_tapeWithin h _
  · exact h

theorem composerStatus_tapeWithin (m : StatusMsg) : tapeWithin (composerStatus m s) := by
  unfold composerStatus
  split_ifs
  · exact enqueueItem_tapeWithin h _
  · exact h

theorem composerCancel_tapeWithin (m : CancelMsg) : tapeWithin (composerCancel m s) := by
  obtain ⟨hq, hr, hh⟩ := id h
  unfold composerCancel
  split_ifs
  · exact ⟨(List.eraseP_sublist.length_le).trans hq, hr, hh⟩
  · exact enqueueItem_tapeWithin h _
  · exact h

theorem requestPace_tapeWithin : tapeWithin (requestPace s) := by
  rcases requestPace_cases s with e | ⟨-, e⟩ | ⟨r, -, -, -, -, e⟩ <;> rw [e] <;> exact h

theorem enterLevel_tapeWithin (n : Nat) : tapeWithin (enterLevel n s) := by
  obtain ⟨hcomposer, hhold, -⟩ := enterLevel_keeps n s
  unfold tapeWithin
  rw [hcomposer, hhold]
  exact h

theorem stepLevel_tapeWithin (n : Nat) : tapeWithin (stepLevel n s) := by
  unfold stepLevel
  split_ifs
  · exact h
  · exact enterLevel_tapeWithin h n

/-- R69: a set that has room leaves the hold within its size. -/
theorem composeSet_tapeWithin {set : List (Glyph × Attr)}
    (hroom : s.crawl.hold.length + set.length ≤ Config.holdSize) : tapeWithin (composeSet set s) := by
  obtain ⟨hq, hr, -⟩ := h
  obtain ⟨new, e, heq, hset, -⟩ := composeSet_eq set s
  rw [heq]
  refine ⟨hq, hr, ?_⟩
  show (s.crawl.hold ++ new).length ≤ _
  rw [← hset, List.length_map] at hroom
  rwa [List.length_append]

omit h in
theorem stepLevel_hold (s : State) (n : Nat) : (stepLevel n s).crawl.hold = s.crawl.hold := by
  unfold stepLevel
  split_ifs
  · rfl
  · exact (enterLevel_keeps n s).2.1

theorem printTake_tapeWithin : tapeWithin (printTake s) := by
  unfold printTake
  split
  · rename_i y price lots kind id a rest hq
    split_ifs with hroom
    · simp only [roomFor, Bool.and_eq_true, decide_eq_true_eq] at hroom
      obtain ⟨-, -, hroom⟩ := hroom
      obtain ⟨hqueue, hrecent, hhold⟩ :=
        composeSet_tapeWithin (stepLevel_tapeWithin h
          (printSet s.tickCount a s.composer y price lots kind).level) (by rwa [stepLevel_hold])
      refine ⟨?_, ?_, hhold⟩
      · have : rest.length ≤ s.composer.printQueue.length := by simp [hq]
        exact this.trans h.1
      · show (recentOf _ _ _ _ _).length ≤ _
        unfold recentOf
        split_ifs
        · exact hrecent
        · exact List.length_take_le _ _
    · exact h
  · exact h

theorem takeText_tapeWithin {text : List (Glyph × Attr)} {rest : List TapeItem}
    (hrest : rest.length ≤ s.composer.printQueue.length) : tapeWithin (takeText text rest s) := by
  unfold takeText
  split_ifs with hroom
  · simp only [roomFor, Bool.and_eq_true, decide_eq_true_eq] at hroom
    obtain ⟨-, hrecent, hhold⟩ := composeSet_tapeWithin h hroom.2.2
    exact ⟨hrest.trans h.1, hrecent, hhold⟩
  · exact h

theorem cancelTake_tapeWithin : tapeWithin (cancelTake s) := by
  unfold cancelTake
  split
  · exact takeText_tapeWithin h (by simp [*])
  · exact h

theorem statusTake_tapeWithin : tapeWithin (statusTake s) := by
  unfold statusTake
  split
  · exact takeText_tapeWithin h (by simp [*])
  · exact h

omit h in
/-- The idle timer's counting and its expiry leave the composer's lists alone. -/
theorem countIdle_lists (c : Composer) :
    c.countIdle.printQueue = c.printQueue ∧ c.countIdle.recent = c.recent ∧
      c.countIdle.level = c.level := by
  unfold Composer.countIdle
  split
  · split_ifs <;> exact ⟨rfl, rfl, rfl⟩
  · exact ⟨rfl, rfl, rfl⟩

omit h in
theorem idleExpiry_lists (c : Composer) :
    c.idleExpiry.printQueue = c.printQueue ∧ c.idleExpiry.recent = c.recent ∧
      c.idleExpiry.level = c.level := by
  unfold Composer.idleExpiry
  split
  · split_ifs <;> exact ⟨rfl, rfl, rfl⟩
  · exact ⟨rfl, rfl, rfl⟩

theorem idleExpiry_tapeWithin : tapeWithin (s.onComposer Composer.idleExpiry) := by
  obtain ⟨hq, hr, -⟩ := idleExpiry_lists s.composer
  unfold tapeWithin
  rw [State.onComposer_composer, hq, hr]
  exact h

theorem idleTick_tapeWithin : tapeWithin (idleTick s) := by
  unfold idleTick
  split_ifs
  · obtain ⟨hq, hr, -⟩ := countIdle_lists s.composer
    obtain ⟨hq', hr', -⟩ := idleExpiry_lists s.composer.countIdle
    unfold tapeWithin
    rw [State.onComposer_composer, hq', hr', hq, hr]
    exact h
  · exact h

theorem idleDecay_tapeWithin : tapeWithin (idleDecay s) := by
  unfold idleDecay
  split_ifs with hroom
  · simp only [roomFor, Bool.and_eq_true, decide_eq_true_eq] at hroom
    have hhold := (enterLevel_keeps (s.composer.level - 1) s).2.1
    exact composeSet_tapeWithin (enterLevel_tapeWithin h _) (by rw [hhold]; exact hroom.2.2)
  · exact h

theorem forward_tapeWithin (n : Nat) : tapeWithin (forward n s) := by
  obtain ⟨hold, q, e, -, -, hlen⟩ := forward_eq n s
  rw [e]
  exact tapeWithin_of_hold (s := s) rfl hlen h

theorem judgeHold_tapeWithin : tapeWithin (judgeHold s) := by
  obtain ⟨hold, q, e, -, -, hlen⟩ := judgeHold_eq s
  rw [e]
  exact tapeWithin_of_hold (s := s) rfl hlen h

omit h in
theorem advance_hold (c : Crawl) : c.advance.hold = c.hold := by
  unfold Crawl.advance
  split_ifs <;> rfl

omit h in
theorem stepped_hold (head : Bool) (c : Crawl) : (c.stepped head).hold = c.hold := by
  unfold Crawl.stepped
  split_ifs
  · rfl
  · exact advance_hold _

theorem paceAtMultiple_tapeWithin : tapeWithin (paceAtMultiple s) := by
  unfold paceAtMultiple
  split_ifs
  · exact requestPace_tapeWithin h
  · exact h

theorem crawlStep_tapeWithin : tapeWithin (crawlStep s) := by
  cases hm : s.moving
  · rwa [crawlStep_of_still hm]
  · rw [crawlStep_of_moving hm]
    exact paceAtMultiple_tapeWithin (judgeHold_tapeWithin
      (tapeWithin_of_hold (s := s) rfl (congrArg List.length (stepped_hold _ _)).le h))

theorem timerClock_tapeWithin : tapeWithin (timerClock s) := by
  unfold timerClock
  split_ifs
  · exact crawlStep_tapeWithin h
  · exact h
  · exact h

omit h in
theorem insertChar_length (c : TapeChar) (hold : List TapeChar) :
    (insertChar c hold).length = hold.length + 1 := by
  have := congrArg List.length (List.takeWhile_append_dropWhile (p := TapeChar.below c.index) (l := hold))
  rw [List.length_append] at this
  simp only [insertChar, holdBelow, holdAbove, List.length_append, List.length_cons]
  omega

omit h in
/-- R102: a character that is not dropped finds room. -/
theorem length_lt_of_dropsChar {c : TapeChar} {hold : List TapeChar} (hd : dropsChar c hold = false) :
    hold.length < Config.holdSize := by
  simp only [dropsChar, Bool.or_eq_false_iff, decide_eq_false_iff_not, not_le] at hd
  exact hd.2

theorem placeChar_tapeWithin (c : TapeChar) : tapeWithin (placeChar c s) := by
  obtain ⟨hq, hr, -⟩ := id h
  have hins : dropsChar c s.crawl.hold = false →
      (insertChar c s.crawl.hold).length ≤ Config.holdSize := fun hd => by
    rw [insertChar_length]
    exact length_lt_of_dropsChar hd
  rcases placeChar_cases c s with ⟨-, e⟩ | ⟨-, -, -, -, e⟩ | ⟨hd, -, -, -, e⟩ | ⟨hd, -, e⟩ <;> rw [e]
  · exact h
  · exact h
  · exact ⟨hq, hr, hins hd⟩
  · exact ⟨hq, hr, hins hd⟩

omit h in
theorem placeChars_tapeWithin {s : State} (h : tapeWithin s) (i : Col) (cs : List HandoffChar) :
    tapeWithin (placeChars i cs s) := by
  induction cs generalizing i s with
  | nil => exact h
  | cons c cs ih => exact ih (placeChar_tapeWithin h _) _

theorem enterRunning_tapeWithin : tapeWithin (enterRunning s) :=
  judgeHold_tapeWithin (tapeWithin_of_hold (s := s) rfl le_rfl h)

theorem takeOffset_tapeWithin (o : BitVec 16) : tapeWithin (takeOffset o s) := by
  unfold takeOffset
  split
  · split_ifs
    · exact enterRunning_tapeWithin (tapeWithin_of_hold (s := s) rfl le_rfl h)
    · exact h
  · split_ifs
    · exact h
    · exact h

theorem takeHandoff_tapeWithin (m : HandoffMsg) : tapeWithin (takeHandoff m s) := by
  have hplaced := placeChars_tapeWithin (takeOffset_tapeWithin h m.offset) m.first m.chars
  unfold takeHandoff forwardIfMoving
  split_ifs
  · exact forward_tapeWithin hplaced _
  · exact hplaced

theorem correctSteps_tapeWithin (head : Col) : tapeWithin (correctSteps head s) := by
  unfold correctSteps
  split_ifs
  · exact h
  · exact h
  · exact judgeHold_tapeWithin (tapeWithin_of_hold (s := s) rfl le_rfl h)

theorem takePace_tapeWithin (m : PaceMsg) : tapeWithin (takePace m s) := by
  unfold takePace
  split
  · exact h
  · split_ifs
    · exact enterRunning_tapeWithin (tapeWithin_of_hold (s := s) rfl le_rfl h)
    · exact h
  · refine correctSteps_tapeWithin ?_ _
    exact h
  · refine correctSteps_tapeWithin ?_ _
    exact h

theorem crawlPace_tapeWithin (m : PaceMsg) : tapeWithin (crawlPace m s) := by
  unfold crawlPace
  split_ifs
  · exact takePace_tapeWithin h m
  · exact h

omit h in
theorem coastingExpiry_hold (c : Crawl) : c.coastingExpiry.hold = c.hold := by
  unfold Crawl.coastingExpiry
  split
  · split_ifs <;> rfl
  · rfl

omit h in
theorem waitingExpiry_hold (c : Crawl) :
    c.waitingExpiry.hold = c.hold ∨ c.waitingExpiry.hold = [] := by
  unfold Crawl.waitingExpiry
  split
  · split_ifs
    · exact .inr rfl
    · exact .inl rfl
  · exact .inl rfl

omit h in
theorem countSilence_hold (c : Crawl) : c.countSilence.hold = c.hold := by
  unfold Crawl.countSilence
  split
  · split_ifs <;> rfl
  · rfl

omit h in
theorem silenceTick_hold (c : Crawl) : c.silenceTick.hold = c.hold ∨ c.silenceTick.hold = [] := by
  unfold Crawl.silenceTick
  rw [coastingExpiry_hold]
  exact (waitingExpiry_hold _).imp_left fun e => e.trans (countSilence_hold c)

theorem onCrawl_tapeWithin {f : Crawl → Crawl}
    (hf : (f s.crawl).hold = s.crawl.hold ∨ (f s.crawl).hold = []) : tapeWithin (s.onCrawl f) := by
  refine tapeWithin_of_hold (s := s) rfl ?_ h
  rw [State.onCrawl_crawl]
  rcases hf with e | e <;> simp [e]

omit h in
theorem dayStart_tapeWithin (s : State) : tapeWithin (dayStart s) := by
  have hstart : tapeWithin ((flushQueues (resetTerminals (((s.withTable []).withCells
      (s.cells.map CellRecord.dayStart)).withComposer Composer.atReset))).onCrawl
        (Crawl.dayStart s.isHead)) := by
    have hdesk := resetTerminals_desk (((s.withTable []).withCells
      (s.cells.map CellRecord.dayStart)).withComposer Composer.atReset)
    have hcomposer : (flushQueues (resetTerminals (((s.withTable []).withCells
      (s.cells.map CellRecord.dayStart)).withComposer Composer.atReset))).composer =
        Composer.atReset := hdesk.composer
    unfold tapeWithin
    rw [State.onCrawl_composer, hcomposer]
    exact ⟨Nat.zero_le _, Nat.zero_le _, Nat.zero_le _⟩
  unfold dayStart requestAtZero
  split_ifs
  · exact requestPace_tapeWithin hstart
  · exact hstart

end TapeWithin

/-! ### The commands that reach the tape -/

/-- The commands that can change the composer or the crawl unit. -/
def reachesTape : Instr → Bool
  | .floorTick | .crawlStep | .pendingPaceQueued | .print _ | .status _ | .cancel _ | .dayStart _
  | .handoff _ | .pace _ | .printTake | .cancelTake | .statusTake | .idleTimerExpiry | .idleDecay
  | .silenceCoasting | .silenceWaiting => true
  | _ => false

/-- The composer and the crawl unit of t are those of s. -/
def tapeSame (s t : State) : Prop := t.composer = s.composer ∧ t.crawl = s.crawl

theorem DeskFootprint.tapeSame {s t : State} (h : DeskFootprint s t) : tapeSame s t :=
  ⟨h.composer, h.crawl⟩

theorem LineFootprint.tapeSame {s t : State} (h : LineFootprint s t) : tapeSame s t :=
  ⟨h.composer, h.crawl⟩

/-- A message whose effect does not reach the tape does not. -/
theorem handled_tapeSame {c : MsgClass} {f : Frame} {listed : Bool} {effect : Option (State → State)}
    (s : State) (h : ∀ g, effect = some g → listed = true → tapeSame s.dispatched (g s.dispatched)) :
    tapeSame s (handled c f listed effect s) :=
  handled_keeps (P := tapeSame s) ⟨rfl, rfl⟩ ⟨rfl, rfl⟩ ⟨rfl, rfl⟩ fun g hg _ hl => h g hg hl

theorem handled_map_tapeSame {α : Type} {c : MsgClass} {f : Frame} {listed : Bool} {o : Option α}
    {effect : α → State → State} (s : State) (h : ∀ a u, DeskFootprint u (effect a u)) :
    tapeSame s (handled c f listed (o.map effect) s) := by
  refine handled_tapeSame s fun g hg _ => ?_
  obtain ⟨a, -, rfl⟩ := Option.map_eq_some_iff.1 hg
  exact (h a _).tapeSame

theorem effectOf_tapeSame {c : Instr} (s : State) (hc : reachesTape c = false) :
    tapeSame s (effectOf c s) := by
  cases c with
  | floorTick | crawlStep | pendingPaceQueued | print | status | cancel | dayStart | handoff | pace
  | printTake | cancelTake | statusTake | idleTimerExpiry | idleDecay | silenceCoasting
  | silenceWaiting => cases hc
  | resetAssert | powerOnReset | warmUpPhase => exact ⟨rfl, rfl⟩
  | patternEnd cell => exact ⟨rfl, rfl⟩
  | refreshFrame r0 r1 r2 r3 => exact (refreshFrame_desk s r0 r1 r2 r3).tapeSame
  | debounceChange t pos => exact (debouncePosition_scan t s _).tapeSame
  | letterKey | digitKey | quoteKey | clearKey | rubKey | watchKey | unwatchKey | nextKey
  | limitKey | fractionKey => exact (offerKey_scan _ s _).tapeSame
  | beeperExpiry | messageExpiry => exact (onTerm_desk s _ _).tapeSame
  | lineSilenceTimeout =>
    rw [effectOf, lightAtLimit_eq]
    exact ⟨rfl, rfl⟩
  | quote f => exact handled_map_tapeSame s fun m u => tableQuote_desk u m
  | plan f => exact handled_map_tapeSame s fun m u => tablePlan_desk u m
  | ask f => exact handled_map_tapeSame s fun m u => takeAsk_desk u _ m
  | answer f =>
    simp only [effectOf]
    split_ifs
    · exact ⟨rfl, rfl⟩
    · exact handled_map_tapeSame s fun m u => takeAnswer_desk u m
  | answerSnoop f =>
    simp only [effectOf]
    split_ifs
    · exact handled_map_tapeSame s fun m u => suppress_desk u _ m
    · exact ⟨rfl, rfl⟩
  | tallyQuery f =>
    refine handled_tapeSame s fun g hg hl => ?_
    obtain ⟨clear, -, rfl⟩ := Option.map_eq_some_iff.1 hg
    exact (takeTallyQuery_desk s.dispatched _ _ (isOwnNumber_mayReply s hl)).tapeSame
  | tally f => exact handled_tapeSame (effect := none) s fun _ hg _ => nomatch hg
  | askTimeout t => exact (timeoutAsk_scan t s).tapeSame
  | byteReceived bits stop => exact (byteReceived_line s _).tapeSame
  | lineQuiet => exact (lineQuiet_line s).tapeSame
  | attemptStart => exact (attemptStart_line s).tapeSame
  | arbitrationLoss => exact (arbitrationLoss_line s).tapeSame
  | holdByte => exact (holdByte_line s).tapeSame
  | holdOut => exact (holdOut_line s).tapeSame
  | frameAbandoned => exact (abandonFrame_line s).tapeSame
  | attemptComplete => exact (attemptComplete_line s).tapeSame
  | frameComplete => exact (frameComplete_line s).tapeSame
  | dispatchEnd => exact (dispatchEnd_line s).tapeSame

/-- A property of the composer, the crawl unit and the straps that a message's effect keeps is kept by the
message's handling. -/
theorem handled_map_keeps {P : State → Prop} {α : Type} {c : MsgClass} {f : Frame} {listed : Bool}
    {o : Option α} {effect : α → State → State} {s : State} (h : P s) (hfree : P (freeSlot s))
    (hrefuse : P (freeSlot (s.count .framesDiscarded)))
    (heffect : ∀ a, o = some a → listed = true → P (effect a s.dispatched)) :
    P (handled c f listed (o.map effect) s) := by
  refine handled_keeps h hfree hrefuse fun g hg _ hl => ?_
  obtain ⟨a, ha, rfl⟩ := Option.map_eq_some_iff.1 hg
  exact heffect a ha hl

/-- From the board's part on, only the idle timer and the crawl unit's silence timer reach the tape. -/
theorem floorTick_tapeSame (s : State) :
    tapeSame (silenceTick (idleTick (tickBoard s))) (floorTick s) := by
  rw [floorTick_eq, lineSilenceTick_eq]
  have hdesk := (tickTerminals_desk (silenceTick (idleTick (tickBoard s)))).trans
    (timeoutAsks_desk (tickTerminals (silenceTick (idleTick (tickBoard s)))))
  exact ⟨hdesk.composer, hdesk.crawl⟩

theorem effectOf_tapeWithin (c : Instr) {s : State} (h : tapeWithin s) :
    tapeWithin (effectOf c s) := by
  have hsame : ∀ {u v : State}, tapeSame u v → tapeWithin u → tapeWithin v := fun hs =>
    tapeWithin_congr hs.1 hs.2
  cases hc : reachesTape c with
  | false => exact hsame (effectOf_tapeSame s hc) h
  | true =>
    cases c with
    | floorTick =>
      exact hsame (floorTick_tapeSame s) (onCrawl_tapeWithin (s := idleTick (tickBoard s))
        (idleTick_tapeWithin (s := tickBoard s) h) (silenceTick_hold _))
    | crawlStep => exact crawlStep_tapeWithin h
    | pendingPaceQueued =>
      rw [effectOf]
      rcases meetPendingPace_cases s with e | ⟨r, -, -, -, e⟩ <;> rw [e] <;> exact h
    | print f =>
      refine handled_map_keeps h h h fun m _ _ => composerPrint_tapeWithin ?_ m
      have hdesk := (tablePrint_desk s.dispatched m).trans (firePrint_desk _ m)
      exact hsame hdesk.tapeSame h
    | status f =>
      refine handled_map_keeps h h h fun m _ _ => composerStatus_tapeWithin ?_ m
      exact hsame (setRecordState_desk s.dispatched _ _).tapeSame h
    | cancel f =>
      refine handled_map_keeps h h h fun m _ _ => composerCancel_tapeWithin ?_ m
      exact hsame (tableCancel_desk s.dispatched m).tapeSame h
    | dayStart f => exact handled_map_keeps h h h fun _ _ _ => dayStart_tapeWithin _
    | handoff f =>
      refine handled_keeps h h h fun g hg _ _ => ?_
      unfold handoffEffect at hg
      split at hg
      · split_ifs at hg
        cases hg
        exact takeHandoff_tapeWithin (s := s.dispatched) h _
      · cases hg
    | pace f => exact handled_map_keeps h h h fun m _ _ => crawlPace_tapeWithin (s := s.dispatched) h m
    | printTake => exact printTake_tapeWithin h
    | cancelTake => exact cancelTake_tapeWithin h
    | statusTake => exact statusTake_tapeWithin h
    | idleTimerExpiry =>
      simp only [effectOf]
      split_ifs
      · exact idleExpiry_tapeWithin h
      · exact h
    | idleDecay => exact idleDecay_tapeWithin h
    | silenceCoasting => exact onCrawl_tapeWithin h (.inl (coastingExpiry_hold _))
    | silenceWaiting => exact onCrawl_tapeWithin h (waitingExpiry_hold _)
    | _ => cases hc

/-! ### Capacity -/

theorem withinCapacity_iff (s : State) : withinCapacity s ↔ s.line.within ∧ tapeWithin s := by
  unfold withinCapacity Line.within tapeWithin
  simp only [and_assoc]

/-- Settles O5: the line by what every command leaves for it, the tape by what reaches it. -/
theorem stepKeepsCapacity : Obligations.StepKeepsCapacity := by
  intro s t h hst
  refine step_keeps (P := withinCapacity) (fun _ _ h => h) (fun _ h => h) (fun pins s _ => ?_)
    (fun s _ h => ?_) (fun c s _ h => ?_) h hst
  · have hstart : (s.powerOn (readStraps pins)).line.within ∧
        tapeWithin (s.powerOn (readStraps pins)) := by
      refine ⟨⟨Nat.zero_le _, Nat.zero_le _, Nat.zero_le _, fun h => nomatch h⟩, Nat.zero_le _,
        Nat.zero_le _, ?_⟩
      show (Crawl.powerOn (readStraps pins)).hold.length ≤ _
      unfold Crawl.powerOn
      split
      · exact Nat.zero_le _
      · split_ifs <;> exact Nat.zero_le _
    rw [withinCapacity_iff]
    refine ⟨(requestAtZero_tape _).sends.1 hstart.1, ?_⟩
    show tapeWithin (requestAtZero (s.powerOn (readStraps pins)))
    unfold requestAtZero
    split
    · exact requestPace_tapeWithin hstart.2
    · exact hstart.2
  · rw [withinCapacity_iff] at *
    exact ⟨(timerClock_tape s).sends.1 h.1, timerClock_tapeWithin h.2⟩
  · rw [withinCapacity_iff] at *
    exact ⟨(effectOf_sends c s).1 h.1, effectOf_tapeWithin c h.2⟩

end Sys2Proof.Machine
end

section
/-!
PROOFS. The roles on a ribbon (R63, R89 to R92): the segment state agrees with the station's place, and at
a head the pace level with the late-tape level and the idle timer with the print queue (R72, R75).
-/
namespace Sys2Proof.Machine

/-! ### The segment state and the role -/

theorem crawlByRole_congr {s t : State} (hs : t.straps = s.straps)
    (hseg : t.crawl.segState = s.crawl.segState) (hsil : t.crawl.silence = s.crawl.silence)
    (hhead : s.isHead = true → t.crawl.offset = s.crawl.offset ∧ t.crawl.slew = s.crawl.slew)
    (h : crawlByRole s) : crawlByRole t := by
  obtain ⟨hnone, hh, hribbon, hstopped⟩ := h
  unfold crawlByRole
  rw [isHead_of_straps hs, hs, hseg, hsil]
  refine ⟨hnone, fun h => ?_, hribbon, hstopped⟩
  rw [(hhead h).1, (hhead h).2]
  exact hh h

theorem crawlByRole_of_crawl {s t : State} (hs : t.straps = s.straps) (hc : t.crawl = s.crawl)
    (h : crawlByRole s) : crawlByRole t :=
  crawlByRole_congr hs (by rw [hc]) (by rw [hc]) (fun _ => by rw [hc]; exact ⟨rfl, rfl⟩) h

/-- A segment of a ribbon other than its head. -/
def State.follows (s : State) : Prop := s.straps.ribbon.isSome ∧ s.straps.segment ≠ 0

theorem follows_of_straps {s t : State} (hs : t.straps = s.straps) (h : s.follows) : t.follows := by
  unfold State.follows at *
  rwa [hs]

theorem isHead_of_follows {s : State} (h : s.follows) : s.isHead = false := by
  simp [State.isHead, h.2]

/-- The law of a segment that is not the head. -/
theorem crawlByRole_of_follows {s : State} (h : s.follows) (hdark : s.crawl.segState ≠ .dark)
    (hwait : s.crawl.segState = .waiting → s.crawl.silence = none) : crawlByRole s := by
  refine ⟨fun hn => ?_, fun hh => ?_, fun _ _ => hdark, ?_⟩
  · simp [State.follows, hn] at h
  · exact absurd (hh.symm.trans (isHead_of_follows h)) (by simp)
  · rintro (hd | hw)
    · exact absurd hd hdark
    · exact hwait hw

/-- A segment that waits, or whose silence timer runs, follows a head. -/
theorem follows_of_crawlByRole {s : State} (h : crawlByRole s)
    (hs : s.crawl.segState = .waiting ∨ s.crawl.silence ≠ none) : s.follows := by
  obtain ⟨hnone, hhead, -, hstopped⟩ := h
  have hsome : s.straps.ribbon.isSome := by
    cases hr : s.straps.ribbon with
    | some r => rfl
    | none =>
      have hd := hnone hr
      rcases hs with hw | hs
      · simp [hd] at hw
      · exact absurd (hstopped (.inl hd)) hs
  refine ⟨hsome, fun h0 => ?_⟩
  obtain ⟨hrun, -, -, hsil⟩ := hhead (by simp [State.isHead, hsome, h0])
  rcases hs with hw | hs
  · simp [hrun] at hw
  · exact hs hsil

section Roles
variable {s : State}

/-- What a forwarding, a Pace request or a removal leaves of the crawl unit's role. -/
def roleSame (s t : State) : Prop :=
  t.crawl.segState = s.crawl.segState ∧ t.crawl.silence = s.crawl.silence ∧
    t.crawl.offset = s.crawl.offset ∧ t.crawl.slew = s.crawl.slew

theorem roleSame.refl (s : State) : roleSame s s := ⟨rfl, rfl, rfl, rfl⟩

theorem roleSame.trans {s t u : State} (h : roleSame s t) (k : roleSame t u) : roleSame s u :=
  ⟨k.1.trans h.1, k.2.1.trans h.2.1, k.2.2.1.trans h.2.2.1, k.2.2.2.trans h.2.2.2⟩

theorem roleSame.crawlByRole {s t : State} (h : roleSame s t) (hs : t.straps = s.straps)
    (hr : crawlByRole s) : crawlByRole t :=
  crawlByRole_congr hs h.1 h.2.1 (fun _ => h.2.2) hr

theorem requestPace_roleSame (s : State) : roleSame s (requestPace s) := by
  rcases requestPace_cases s with e | ⟨-, e⟩ | ⟨r, -, -, -, -, e⟩ <;> rw [e] <;>
    exact ⟨rfl, rfl, rfl, rfl⟩

theorem meetPendingPace_roleSame (s : State) : roleSame s (meetPendingPace s) := by
  rcases meetPendingPace_cases s with e | ⟨r, -, -, -, e⟩ <;> rw [e] <;> exact ⟨rfl, rfl, rfl, rfl⟩

theorem forward_roleSame (n : Nat) (s : State) : roleSame s (forward n s) := by
  obtain ⟨hold, q, e, -⟩ := forward_eq n s
  rw [e]
  exact ⟨rfl, rfl, rfl, rfl⟩

theorem judgeHold_roleSame (s : State) : roleSame s (judgeHold s) := by
  obtain ⟨hold, q, e, -⟩ := judgeHold_eq s
  rw [e]
  exact ⟨rfl, rfl, rfl, rfl⟩

theorem enterLevel_roleSame (n : Nat) (s : State) : roleSame s (enterLevel n s) :=
  roleSame.trans (t := (s.onComposer fun c => { c with level := n }).onCrawl
    fun c => { c with paceLevel := n, staged := some (pacePeriod n) }) ⟨rfl, rfl, rfl, rfl⟩
    (requestPace_roleSame _)

theorem stepLevel_roleSame (n : Nat) (s : State) : roleSame s (stepLevel n s) := by
  unfold stepLevel
  split_ifs
  · exact .refl s
  · exact enterLevel_roleSame n s

theorem composeSet_roleSame (set : List (Glyph × Attr)) (s : State) :
    roleSame s (composeSet set s) := by
  obtain ⟨new, e, h, -⟩ := composeSet_eq set s
  rw [h]
  exact ⟨rfl, rfl, rfl, rfl⟩

theorem printTake_roleSame (s : State) : roleSame s (printTake s) := by
  unfold printTake
  split
  · split_ifs
    · exact (stepLevel_roleSame _ s).trans (composeSet_roleSame _ _)
    · exact .refl s
  · exact .refl s

theorem takeText_roleSame (text : List (Glyph × Attr)) (rest : List TapeItem) (s : State) :
    roleSame s (takeText text rest s) := by
  unfold takeText
  split_ifs
  · exact composeSet_roleSame _ s
  · exact .refl s

theorem cancelTake_roleSame (s : State) : roleSame s (cancelTake s) := by
  unfold cancelTake
  split
  · exact takeText_roleSame _ _ s
  · exact .refl s

theorem statusTake_roleSame (s : State) : roleSame s (statusTake s) := by
  unfold statusTake
  split
  · exact takeText_roleSame _ _ s
  · exact .refl s

theorem idleDecay_roleSame (s : State) : roleSame s (idleDecay s) := by
  unfold idleDecay
  split_ifs
  · exact (enterLevel_roleSame _ s).trans (composeSet_roleSame _ _)
  · exact .refl s

theorem placeChar_roleSame (c : TapeChar) (s : State) : roleSame s (placeChar c s) := by
  rcases placeChar_cases c s with ⟨-, e⟩ | ⟨-, -, -, -, e⟩ | ⟨-, -, -, -, e⟩ | ⟨-, -, e⟩ <;> rw [e] <;>
    exact ⟨rfl, rfl, rfl, rfl⟩

theorem placeChars_roleSame (i : Col) (cs : List HandoffChar) (s : State) :
    roleSame s (placeChars i cs s) := by
  induction cs generalizing i s with
  | nil => exact .refl s
  | cons c cs ih => exact (placeChar_roleSame _ s).trans (ih _ _)

theorem forwardIfMoving_roleSame (s : State) : roleSame s (forwardIfMoving s) := by
  unfold forwardIfMoving
  split_ifs
  · exact forward_roleSame _ s
  · exact .refl s

theorem enqueueItem_crawl (i : TapeItem) (s : State) : (enqueueItem i s).crawl = s.crawl := by
  rcases enqueueItem_cases i s with ⟨-, e⟩ | ⟨-, e⟩ <;> rw [e] <;> rfl

theorem composerPrint_crawl (m : PrintMsg) (s : State) : (composerPrint m s).crawl = s.crawl := by
  unfold composerPrint
  split_ifs
  · exact enqueueItem_crawl _ s
  · rfl

theorem composerStatus_crawl (m : StatusMsg) (s : State) : (composerStatus m s).crawl = s.crawl := by
  unfold composerStatus
  split_ifs
  · exact enqueueItem_crawl _ s
  · rfl

theorem composerCancel_crawl (m : CancelMsg) (s : State) : (composerCancel m s).crawl = s.crawl := by
  unfold composerCancel
  split_ifs
  · rfl
  · exact enqueueItem_crawl _ s
  · rfl

theorem idleTick_crawl (s : State) : (idleTick s).crawl = s.crawl := by
  unfold idleTick
  split_ifs <;> rfl

/-! ### Steps, Handoffs and Paces -/

theorem advance_role (c : Crawl) :
    c.advance.segState = c.segState ∧ c.advance.silence = c.silence ∧ c.advance.offset = c.offset := by
  unfold Crawl.advance
  split_ifs <;> exact ⟨rfl, rfl, rfl⟩

theorem paceAtMultiple_roleSame (s : State) : roleSame s (paceAtMultiple s) := by
  unfold paceAtMultiple
  split_ifs
  · exact requestPace_roleSame s
  · exact .refl s

theorem crawlStep_byRole (h : crawlByRole s) : crawlByRole (crawlStep s) := by
  cases hm : s.moving
  · rwa [crawlStep_of_still hm]
  · rw [crawlStep_of_moving hm]
    have hstep : crawlByRole (s.onCrawl (Crawl.stepped s.isHead)) := by
      have hfields := advance_role s.crawl.pass
      cases hh : s.isHead
      · exact crawlByRole_congr (s := s) rfl hfields.1 hfields.2.1
          (fun hh' => absurd (hh.symm.trans hh') (by simp)) h
      · exact crawlByRole_congr (s := s) rfl rfl rfl (fun _ => ⟨rfl, rfl⟩) h
    exact ((judgeHold_roleSame _).trans (paceAtMultiple_roleSame _)).crawlByRole
      ((judgeHold_tape _).trans (paceAtMultiple_tape _)).straps hstep

theorem timerClock_byRole (h : crawlByRole s) : crawlByRole (timerClock s) := by
  unfold timerClock
  split_ifs
  · exact crawlStep_byRole h
  · exact crawlByRole_congr (s := s) rfl rfl rfl (fun _ => ⟨rfl, rfl⟩) h
  · exact h

theorem enterRunning_segState (s : State) : (enterRunning s).crawl.segState = .running :=
  (judgeHold_roleSame _).1

/-- A segment that follows a head keeps its law where it takes an offset. -/
theorem takeOffset_byRole (hf : s.follows) (o : BitVec 16) (h : crawlByRole s) :
    crawlByRole (takeOffset o s) := by
  have hother : ∀ t : State, t.straps = s.straps → t.crawl.segState = s.crawl.segState →
      t.crawl.silence = s.crawl.silence → crawlByRole t := fun t hs hseg hsil =>
    crawlByRole_congr hs hseg hsil
      (fun hh => absurd (hh.symm.trans (isHead_of_follows hf)) (by simp)) h
  unfold takeOffset
  split
  · split_ifs
    · have hseg := enterRunning_segState (s.onCrawl fun c => { c with offset := some o })
      refine crawlByRole_of_follows (follows_of_straps ((enterRunning_tape _).straps) hf) ?_ ?_
      · simp [hseg]
      · simp [hseg]
    · exact hother _ rfl rfl rfl
  · split_ifs
    · exact h
    · exact hother _ rfl rfl rfl

theorem takeHandoff_byRole (hf : s.follows) (m : HandoffMsg) (h : crawlByRole s) :
    crawlByRole (takeHandoff m s) :=
  ((placeChars_roleSame m.first m.chars _).trans (forwardIfMoving_roleSame _)).crawlByRole
    ((placeChars_tape _ m.first m.chars).trans (forwardIfMoving_tape _)).straps
    (takeOffset_byRole hf m.offset h)

theorem correctSteps_segState (head : Col) (s : State) :
    (correctSteps head s).crawl.segState = s.crawl.segState := by
  unfold correctSteps
  split_ifs
  · rfl
  · rfl
  · exact (judgeHold_roleSame _).1

theorem takePace_byRole (hf : s.follows) (m : PaceMsg) (h : crawlByRole s) :
    crawlByRole (takePace m s) := by
  have hmove : (takePace m s).crawl.segState = .running → crawlByRole (takePace m s) := fun hseg =>
    crawlByRole_of_follows (follows_of_straps (takePace_tape s m).straps hf) (by simp [hseg])
      (by simp [hseg])
  cases hseg : s.crawl.segState with
  | dark => rwa [takePace, hseg]
  | waiting =>
    have hsil : s.crawl.silence = none := h.2.2.2 (.inr hseg)
    cases ho : s.crawl.offset.isSome
    · have : takePace m s = s.onCrawl fun c => (c.hearPace m.level).setSteps m.steps := by
        simp [takePace, hseg, ho]
      rw [this]
      exact crawlByRole_of_follows hf (by simp [Crawl.setSteps, Crawl.hearPace, hseg]) fun _ => hsil
    · refine hmove ?_
      simp only [takePace, hseg, ho, if_true]
      exact enterRunning_segState _
  | running =>
    refine hmove ?_
    simp only [takePace, hseg]
    rw [correctSteps_segState]
    exact hseg
  | coasting =>
    refine hmove ?_
    simp only [takePace, hseg]
    rw [correctSteps_segState]
    rfl

theorem crawlPace_byRole (m : PaceMsg) (h : crawlByRole s) : crawlByRole (crawlPace m s) := by
  unfold crawlPace
  split_ifs with hp
  · have hf : s.follows := by
      simp only [followsPace, Bool.and_eq_true, beq_iff_eq, bne_iff_ne] at hp
      exact ⟨by simp [hp.1], hp.2⟩
    exact takePace_byRole hf m h
  · exact h

/-! ### The silence timer (R92, R93) -/

/-- R92, R93: a change that the silence timer brings: none where the timer is stopped, and never to DARK,
nor to WAITING with the timer running. -/
def silenceChange (f : Crawl → Crawl) : Prop :=
  ∀ c : Crawl, (c.silence = none → f c = c) ∧
    (c.segState ≠ .dark → c.segState ≠ .waiting → (f c).segState ≠ .dark ∧
      ((f c).segState = .waiting → (f c).silence = none))

theorem silenceChange_coasting : silenceChange Crawl.coastingExpiry := by
  intro c
  constructor
  · intro hn
    unfold Crawl.coastingExpiry
    split
    · simp_all
    · rfl
  · intro hd hw
    unfold Crawl.coastingExpiry
    split
    · split_ifs
      · simp
      · exact ⟨hd, fun h => absurd h hw⟩
    · exact ⟨hd, fun h => absurd h hw⟩

theorem silenceChange_waiting : silenceChange Crawl.waitingExpiry := by
  intro c
  constructor
  · intro hn
    unfold Crawl.waitingExpiry
    split
    · simp_all
    · rfl
  · intro hd hw
    unfold Crawl.waitingExpiry
    split
    · split_ifs
      · exact ⟨by simp [Crawl.fallSilent], fun _ => rfl⟩
      · exact ⟨hd, fun h => absurd h hw⟩
    · exact ⟨hd, fun h => absurd h hw⟩

theorem countSilence_segState (c : Crawl) : c.countSilence.segState = c.segState := by
  unfold Crawl.countSilence
  split
  · split_ifs <;> rfl
  · rfl

theorem coastingExpiry_of_waiting {c : Crawl} (h : c.segState = .waiting) : c.coastingExpiry = c := by
  unfold Crawl.coastingExpiry
  split
  · simp_all
  · rfl

theorem silenceChange_tick : silenceChange Crawl.silenceTick := by
  intro c
  constructor
  · intro hn
    have hcount : c.countSilence = c := by
      unfold Crawl.countSilence
      rw [hn]
    unfold Crawl.silenceTick
    rw [hcount, (silenceChange_waiting c).1 hn, (silenceChange_coasting c).1 hn]
  · intro hd hw
    unfold Crawl.silenceTick
    obtain ⟨hdark, hwait⟩ := (silenceChange_waiting c.countSilence).2
      (by rwa [countSilence_segState]) (by rwa [countSilence_segState])
    by_cases hfall : c.countSilence.waitingExpiry.segState = .waiting
    · rw [coastingExpiry_of_waiting hfall]
      exact ⟨hdark, hwait⟩
    · exact (silenceChange_coasting _).2 hdark hfall

theorem silenceChange_byRole {f : Crawl → Crawl} (hf : silenceChange f) (h : crawlByRole s) :
    crawlByRole (s.onCrawl f) := by
  obtain ⟨hstay, hmove⟩ := hf s.crawl
  by_cases hs : s.crawl.silence = none
  · exact crawlByRole_of_crawl (s := s) rfl (hstay hs) h
  · have hd : s.crawl.segState ≠ .dark := fun e => hs (h.2.2.2 (.inl e))
    have hw : s.crawl.segState ≠ .waiting := fun e => hs (h.2.2.2 (.inr e))
    have hfollows := follows_of_crawlByRole h (.inr hs)
    exact crawlByRole_of_follows hfollows (hmove hd hw).1 (hmove hd hw).2

/-! ### Day Start and the release of the pin -/

/-- The state after Day Start at the table, the cells and the composer. -/
def State.boardCleared (s : State) : State :=
  ((s.withTable []).withCells (s.cells.map CellRecord.dayStart)).withComposer Composer.atReset

/-- The state that Day Start leaves before the head's request. -/
def State.dayStarted (s : State) : State :=
  (flushQueues (resetTerminals s.boardCleared)).onCrawl (Crawl.dayStart s.isHead)

theorem dayStart_eq (s : State) : dayStart s = requestAtZero s.dayStarted := rfl

theorem flushQueues_blocks (s : State) : (flushQueues s).straps = s.straps ∧
    (flushQueues s).crawl = s.crawl ∧ (flushQueues s).composer = s.composer :=
  ⟨rfl, rfl, rfl⟩

theorem dayStarted_straps (s : State) : s.dayStarted.straps = s.straps :=
  (flushQueues_blocks _).1.trans (resetTerminals_desk s.boardCleared).straps

theorem dayStarted_crawl (s : State) : s.dayStarted.crawl = s.crawl.dayStart s.isHead :=
  congrArg (Crawl.dayStart s.isHead)
    ((flushQueues_blocks _).2.1.trans (resetTerminals_desk s.boardCleared).crawl)

theorem dayStarted_composer (s : State) : s.dayStarted.composer = Composer.atReset :=
  (flushQueues_blocks _).2.2.trans (resetTerminals_desk s.boardCleared).composer

theorem requestAtZero_roleSame (s : State) : roleSame s (requestAtZero s) := by
  unfold requestAtZero
  split_ifs
  · exact requestPace_roleSame s
  · exact .refl s

theorem dayStart_byRole (h : crawlByRole s) : crawlByRole (dayStart s) := by
  rw [dayStart_eq]
  refine (requestAtZero_roleSame _).crawlByRole (requestAtZero_straps _) ?_
  obtain ⟨hnone, hhead, hribbon, -⟩ := h
  unfold crawlByRole
  rw [isHead_of_straps (dayStarted_straps s), dayStarted_straps, dayStarted_crawl]
  refine ⟨fun hr => ?_, fun hh => ?_, fun hr hseg => ?_, fun _ => rfl⟩
  · simp [Crawl.dayStart, hnone hr]
  · obtain ⟨hrun, hoffset, -, -⟩ := hhead hh
    exact ⟨by simp [Crawl.dayStart, hrun, hh], hoffset, rfl, rfl⟩
  · have hd := hribbon hr hseg
    cases hh : s.isHead <;> simp [Crawl.dayStart, hd]

theorem powerOn_byRole (p : Straps) (s : State) : crawlByRole (s.powerOn p) := by
  show crawlByRole { State.reset with
    straps := p
    crawl := Crawl.powerOn p
    lamps := LampDriver.powerOn p
    line := Line.atReset p.bitTime
    pending := s.pending }
  unfold crawlByRole State.isHead Crawl.powerOn
  cases hr : p.ribbon with
  | none => simp [Crawl.atReset]
  | some r =>
    by_cases h0 : p.segment = 0
    · simp [h0, Crawl.atReset]
    · simp [h0, Crawl.atReset]

end Roles

/-- A Handoff is listed at a segment that has an address, and taken where it is not the head. -/
theorem follows_of_handoff {s : State} {d : Byte} (hd : s.isOwnSegment d = true)
    (hh : s.isHead = false) : s.follows := by
  unfold State.isOwnSegment at hd
  split at hd
  · rename_i r hr
    refine ⟨by simp [hr], fun h0 => ?_⟩
    simp [State.isHead, hr, h0] at hh
  · cases hd

theorem handoffEffect_some {f : Frame} {s : State} {g : State → State}
    (h : handoffEffect f s = some g) :
    ∃ m, readHandoff f = some m ∧ s.isHead = false ∧ g = takeHandoff m := by
  unfold handoffEffect at h
  split at h
  · rename_i m hm
    split_ifs at h with hh
    exact ⟨m, hm, by simpa using hh, (Option.some.inj h).symm⟩
  · cases h

theorem effectOf_byRole (c : Instr) {s : State} (h : crawlByRole s) : crawlByRole (effectOf c s) := by
  have hs := (effectOf_straps_pending c s).1
  cases hc : reachesTape c with
  | false => exact crawlByRole_of_crawl hs (effectOf_tapeSame s hc).2 h
  | true =>
    cases c with
    | floorTick =>
      refine crawlByRole_of_crawl (s := s.onCrawl Crawl.silenceTick) hs ?_
        (silenceChange_byRole silenceChange_tick h)
      rw [effectOf, (floorTick_tapeSame s).2]
      exact congrArg Crawl.silenceTick (idleTick_crawl (tickBoard s))
    | crawlStep => exact crawlStep_byRole h
    | pendingPaceQueued => exact (meetPendingPace_roleSame s).crawlByRole hs h
    | print f =>
      refine handled_map_keeps h h h fun m _ _ => ?_
      have hdesk := (tablePrint_desk s.dispatched m).trans (firePrint_desk _ m)
      refine crawlByRole_of_crawl (s := s) ((composerPrint_tape _ m).straps.trans hdesk.straps) ?_ h
      exact (composerPrint_crawl m _).trans hdesk.crawl
    | status f =>
      refine handled_map_keeps h h h fun m _ _ => ?_
      have hdesk := setRecordState_desk s.dispatched m.symbol m.state
      refine crawlByRole_of_crawl (s := s) ((composerStatus_tape _ m).straps.trans hdesk.straps) ?_ h
      exact (composerStatus_crawl m _).trans hdesk.crawl
    | cancel f =>
      refine handled_map_keeps h h h fun m _ _ => ?_
      exact crawlByRole_of_crawl (s := s) (composerCancel_tape _ m).straps (composerCancel_crawl m _) h
    | dayStart f => exact handled_map_keeps h h h fun _ _ _ => dayStart_byRole (s := s.dispatched) h
    | handoff f =>
      refine handled_keeps h h h fun g hg _ hl => ?_
      obtain ⟨m, -, hh, rfl⟩ := handoffEffect_some hg
      exact takeHandoff_byRole (s := s.dispatched) (follows_of_handoff hl hh) m h
    | pace f => exact handled_map_keeps h h h fun m _ _ => crawlPace_byRole (s := s.dispatched) m h
    | printTake => exact (printTake_roleSame s).crawlByRole hs h
    | cancelTake => exact (cancelTake_roleSame s).crawlByRole hs h
    | statusTake => exact (statusTake_roleSame s).crawlByRole hs h
    | idleTimerExpiry =>
      simp only [effectOf]
      split_ifs <;> exact h
    | idleDecay => exact (idleDecay_roleSame s).crawlByRole hs h
    | silenceCoasting => exact silenceChange_byRole silenceChange_coasting h
    | silenceWaiting => exact silenceChange_byRole silenceChange_waiting h
    | _ => cases hc

/-- Settles O11: the state changes of a segment, one by one, each by the segment's place. -/
theorem stepKeepsRoles : Obligations.StepKeepsRoles := by
  intro s t h hst
  exact step_keeps (P := crawlByRole) (fun _ _ h => h) (fun _ h => h)
    (fun pins s _ => (requestAtZero_roleSame _).crawlByRole (requestAtZero_straps _)
      (powerOn_byRole (readStraps pins) s))
    (fun _ _ h => timerClock_byRole h) (fun c _ _ h => effectOf_byRole c h) h hst

end Sys2Proof.Machine
end

section
/-!
PROOFS. The late-tape level at a head (R72, R75): the pace level follows it, and the idle timer runs exactly
on an empty print queue.
-/
namespace Sys2Proof.Machine

/-- R72, R75: a pace level and a composer that agree as a head's do. -/
def levelsAgree (pace : Nat) (c : Composer) : Prop :=
  pace = c.level ∧ c.level ≤ 3 ∧ (c.idleTimer.isSome ↔ c.printQueue = [])

theorem headLevelsAgree_iff (s : State) :
    headLevelsAgree s ↔ (s.isHead = true → levelsAgree s.crawl.paceLevel s.composer) := Iff.rfl

/-- t holds the pace level and the composer of s. -/
def levelsSame (s t : State) : Prop :=
  t.crawl.paceLevel = s.crawl.paceLevel ∧ t.composer = s.composer

theorem levelsSame.refl (s : State) : levelsSame s s := ⟨rfl, rfl⟩

theorem levelsSame.trans {s t u : State} (h : levelsSame s t) (k : levelsSame t u) : levelsSame s u :=
  ⟨k.1.trans h.1, k.2.trans h.2⟩

theorem tapeSame.levels {s t : State} (h : tapeSame s t) : levelsSame s t := ⟨by rw [h.2], h.1⟩

theorem levelsSame.headLevelsAgree {s t : State} (h : levelsSame s t) (hs : t.straps = s.straps)
    (hl : headLevelsAgree s) : headLevelsAgree t := by
  intro hh
  rw [isHead_of_straps hs] at hh
  rw [h.1, h.2]
  exact hl hh

/-- A station that is no head has nothing to agree. -/
theorem headLevelsAgree_of_follower {s t : State} (hs : t.straps = s.straps) (hh : s.isHead = false) :
    headLevelsAgree t := fun h => by rw [isHead_of_straps hs, hh] at h; cases h

theorem levelAfter_le {level : Nat} (lateness : Nat) (h : level ≤ 3) : levelAfter level lateness ≤ 3 := by
  unfold levelAfter
  split <;> split_ifs <;> omega

/-! ### The composer's own changes -/

section Composing
variable {pace : Nat} {c : Composer}

theorem levelsAgree_withQueue {q : List TapeItem} (h : levelsAgree pace c)
    (hq : q ≠ [] → c.printQueue ≠ []) : levelsAgree pace (c.withQueue q) := by
  obtain ⟨hpace, hlevel, hidle⟩ := h
  refine ⟨hpace, hlevel, ?_⟩
  by_cases he : q = []
  · simp [Composer.withQueue, he]
  · simp [Composer.withQueue, he, hidle, hq he]

theorem levelsAgree_countIdle (h : levelsAgree pace c) : levelsAgree pace c.countIdle := by
  obtain ⟨hpace, hlevel, hidle⟩ := h
  unfold Composer.countIdle
  split
  · rename_i n hn
    split_ifs
    · exact ⟨hpace, hlevel, by simpa [hn] using hidle⟩
    · exact ⟨hpace, hlevel, hidle⟩
  · exact ⟨hpace, hlevel, hidle⟩

theorem levelsAgree_idleExpiry (h : levelsAgree pace c) : levelsAgree pace c.idleExpiry := by
  obtain ⟨hpace, hlevel, hidle⟩ := h
  unfold Composer.idleExpiry
  split
  · rename_i n hn
    split_ifs
    · exact ⟨hpace, hlevel, by simpa [hn] using hidle⟩
    · exact ⟨hpace, hlevel, hidle⟩
  · exact ⟨hpace, hlevel, hidle⟩

end Composing

section Levels
variable {s : State}

theorem enqueueItem_levels (i : TapeItem) (h : levelsAgree s.crawl.paceLevel s.composer) :
    levelsAgree (enqueueItem i s).crawl.paceLevel (enqueueItem i s).composer := by
  obtain ⟨hpace, hlevel, hidle⟩ := h
  rcases enqueueItem_cases i s with ⟨-, e⟩ | ⟨-, e⟩ <;> rw [e]
  · exact ⟨hpace, hlevel, by simp⟩
  · exact ⟨hpace, hlevel, hidle⟩

theorem composerPrint_levels (m : PrintMsg) (h : levelsAgree s.crawl.paceLevel s.composer) :
    levelsAgree (composerPrint m s).crawl.paceLevel (composerPrint m s).composer := by
  unfold composerPrint
  split_ifs
  · exact enqueueItem_levels _ h
  · exact h

theorem composerStatus_levels (m : StatusMsg) (h : levelsAgree s.crawl.paceLevel s.composer) :
    levelsAgree (composerStatus m s).crawl.paceLevel (composerStatus m s).composer := by
  unfold composerStatus
  split_ifs
  · exact enqueueItem_levels _ h
  · exact h

theorem composerCancel_levels (m : CancelMsg) (h : levelsAgree s.crawl.paceLevel s.composer) :
    levelsAgree (composerCancel m s).crawl.paceLevel (composerCancel m s).composer := by
  unfold composerCancel
  split_ifs
  · exact levelsAgree_withQueue h fun hq hn => hq (by simp [hn])
  · exact enqueueItem_levels _ h
  · exact h

theorem enterLevel_levels {n : Nat} (hn : n ≤ 3) (h : levelsAgree s.crawl.paceLevel s.composer) :
    levelsAgree (enterLevel n s).crawl.paceLevel (enterLevel n s).composer := by
  obtain ⟨hcomposer, -, hpace, -⟩ := enterLevel_keeps n s
  rw [hcomposer, hpace]
  exact ⟨rfl, hn, h.2.2⟩

theorem stepLevel_levels {n : Nat} (hn : n ≤ 3) (h : levelsAgree s.crawl.paceLevel s.composer) :
    levelsAgree (stepLevel n s).crawl.paceLevel (stepLevel n s).composer := by
  unfold stepLevel
  split_ifs
  · exact h
  · exact enterLevel_levels hn h

theorem composeSet_levels (set : List (Glyph × Attr)) (h : levelsAgree s.crawl.paceLevel s.composer) :
    levelsAgree (composeSet set s).crawl.paceLevel (composeSet set s).composer := by
  obtain ⟨new, e, hset, -⟩ := composeSet_eq set s
  rw [hset]
  exact h

theorem composeSet_printQueue (set : List (Glyph × Attr)) (s : State) :
    (composeSet set s).composer.printQueue = s.composer.printQueue := by
  obtain ⟨new, e, hset, -⟩ := composeSet_eq set s
  rw [hset]
  rfl

theorem stepLevel_printQueue (n : Nat) (s : State) :
    (stepLevel n s).composer.printQueue = s.composer.printQueue := by
  unfold stepLevel
  split_ifs
  · rfl
  · rw [(enterLevel_keeps n s).1]

theorem printTake_levels (h : levelsAgree s.crawl.paceLevel s.composer) :
    levelsAgree (printTake s).crawl.paceLevel (printTake s).composer := by
  unfold printTake
  split
  · rename_i sym price lots kind id a rest hq
    split_ifs
    · have hset := composeSet_levels (printSet s.tickCount a s.composer sym price lots kind).chars
        (stepLevel_levels (levelAfter_le (latenessOf s.tickCount a) h.2.1) h)
      exact levelsAgree_withQueue hset fun _ => by
        rw [composeSet_printQueue, stepLevel_printQueue, hq]
        exact List.cons_ne_nil _ _
    · exact h
  · exact h

theorem takeText_levels {text : List (Glyph × Attr)} {rest : List TapeItem}
    (hq : s.composer.printQueue ≠ []) (h : levelsAgree s.crawl.paceLevel s.composer) :
    levelsAgree (takeText text rest s).crawl.paceLevel (takeText text rest s).composer := by
  unfold takeText
  split_ifs
  · exact levelsAgree_withQueue (composeSet_levels text h) fun _ => by rwa [composeSet_printQueue]
  · exact h

theorem cancelTake_levels (h : levelsAgree s.crawl.paceLevel s.composer) :
    levelsAgree (cancelTake s).crawl.paceLevel (cancelTake s).composer := by
  unfold cancelTake
  split
  · rename_i hq
    exact takeText_levels (by simp [hq]) h
  · exact h

theorem statusTake_levels (h : levelsAgree s.crawl.paceLevel s.composer) :
    levelsAgree (statusTake s).crawl.paceLevel (statusTake s).composer := by
  unfold statusTake
  split
  · rename_i hq
    exact takeText_levels (by simp [hq]) h
  · exact h

theorem idleTick_levels (h : levelsAgree s.crawl.paceLevel s.composer) :
    levelsAgree (idleTick s).crawl.paceLevel (idleTick s).composer := by
  unfold idleTick
  split_ifs
  · exact levelsAgree_idleExpiry (levelsAgree_countIdle h)
  · exact h

theorem idleDecay_levels (h : levelsAgree s.crawl.paceLevel s.composer) :
    levelsAgree (idleDecay s).crawl.paceLevel (idleDecay s).composer := by
  unfold idleDecay
  split_ifs with hd
  · obtain ⟨hpace, hlevel, hidle⟩ := h
    have hrun : s.composer.printQueue = [] := by
      have hdue : decayDue s = true := (Bool.and_eq_true _ _ ▸ hd).1
      cases ht : s.composer.idleTimer with
      | none => simp [decayDue, ht] at hdue
      | some n => exact hidle.1 (by simp [ht])
    obtain ⟨hp, hl, hi⟩ := composeSet_levels (lowerNotice (s.composer.level - 1))
      (enterLevel_levels (n := s.composer.level - 1) (by omega) ⟨hpace, hlevel, hidle⟩)
    refine ⟨hp, hl, ?_⟩
    have hq : (composeSet (lowerNotice (s.composer.level - 1))
        (enterLevel (s.composer.level - 1) s)).composer.printQueue = [] := by
      rw [composeSet_printQueue, (enterLevel_keeps _ s).1, hrun]
    simp [hq]
  · exact h

/-! ### What leaves the level alone -/

theorem requestPace_levelsSame (s : State) : levelsSame s (requestPace s) := by
  rcases requestPace_cases s with e | ⟨-, e⟩ | ⟨r, -, -, -, -, e⟩ <;> rw [e] <;> exact ⟨rfl, rfl⟩

theorem meetPendingPace_levelsSame (s : State) : levelsSame s (meetPendingPace s) := by
  rcases meetPendingPace_cases s with e | ⟨r, -, -, -, e⟩ <;> rw [e] <;> exact ⟨rfl, rfl⟩

theorem judgeHold_levelsSame (s : State) : levelsSame s (judgeHold s) := by
  obtain ⟨hold, q, e, -⟩ := judgeHold_eq s
  rw [e]
  exact ⟨rfl, rfl⟩

theorem advance_paceLevel (c : Crawl) : c.advance.paceLevel = c.paceLevel := by
  unfold Crawl.advance
  split_ifs <;> rfl

theorem stepped_paceLevel (head : Bool) (c : Crawl) : (c.stepped head).paceLevel = c.paceLevel := by
  unfold Crawl.stepped
  split_ifs
  · rfl
  · exact advance_paceLevel _

theorem paceAtMultiple_levelsSame (s : State) : levelsSame s (paceAtMultiple s) := by
  unfold paceAtMultiple
  split_ifs
  · exact requestPace_levelsSame s
  · exact .refl s

theorem crawlStep_levelsSame (s : State) : levelsSame s (crawlStep s) := by
  cases hm : s.moving
  · rw [crawlStep_of_still hm]
    exact .refl s
  · rw [crawlStep_of_moving hm]
    have hstep : levelsSame s (s.onCrawl (Crawl.stepped s.isHead)) := ⟨stepped_paceLevel _ _, rfl⟩
    exact (hstep.trans (judgeHold_levelsSame _)).trans (paceAtMultiple_levelsSame _)

theorem timerClock_levelsSame (s : State) : levelsSame s (timerClock s) := by
  unfold timerClock
  split_ifs
  · exact crawlStep_levelsSame s
  · exact ⟨rfl, rfl⟩
  · exact .refl s

theorem coastingExpiry_paceLevel (c : Crawl) : c.coastingExpiry.paceLevel = c.paceLevel := by
  unfold Crawl.coastingExpiry
  split
  · split_ifs <;> rfl
  · rfl

theorem waitingExpiry_paceLevel (c : Crawl) : c.waitingExpiry.paceLevel = c.paceLevel := by
  unfold Crawl.waitingExpiry
  split
  · split_ifs <;> rfl
  · rfl

theorem countSilence_paceLevel (c : Crawl) : c.countSilence.paceLevel = c.paceLevel := by
  unfold Crawl.countSilence
  split
  · split_ifs <;> rfl
  · rfl

theorem silenceTick_paceLevel (c : Crawl) : c.silenceTick.paceLevel = c.paceLevel := by
  unfold Crawl.silenceTick
  rw [coastingExpiry_paceLevel, waitingExpiry_paceLevel, countSilence_paceLevel]

theorem requestAtZero_levelsSame (s : State) : levelsSame s (requestAtZero s) := by
  unfold requestAtZero
  split_ifs
  · exact requestPace_levelsSame s
  · exact .refl s

theorem levelsAgree_atReset : levelsAgree 0 Composer.atReset := by
  refine ⟨rfl, Nat.zero_le _, ?_⟩
  simp [Composer.atReset]

theorem dayStart_headLevels (s : State) : headLevelsAgree (dayStart s) := by
  rw [dayStart_eq]
  refine (requestAtZero_levelsSame _).headLevelsAgree (requestAtZero_straps _) fun _ => ?_
  rw [dayStarted_composer, dayStarted_crawl]
  exact levelsAgree_atReset

theorem powerOn_headLevels (p : Straps) (s : State) : headLevelsAgree (s.powerOn p) := by
  intro _
  have hpace : (Crawl.powerOn p).paceLevel = 0 := by
    unfold Crawl.powerOn
    split
    · rfl
    · split_ifs <;> rfl
  show levelsAgree (Crawl.powerOn p).paceLevel Composer.atReset
  rw [hpace]
  exact levelsAgree_atReset

end Levels

/-- An effect that keeps the levels' agreement keeps it at a head. -/
theorem headLevelsAgree_of_levels {s t : State} (hs : t.straps = s.straps) (h : headLevelsAgree s)
    (hlevels : levelsAgree s.crawl.paceLevel s.composer → levelsAgree t.crawl.paceLevel t.composer) :
    headLevelsAgree t := by
  intro hh
  rw [isHead_of_straps hs] at hh
  exact hlevels (h hh)

theorem effectOf_headLevels (c : Instr) {s : State} (h : headLevelsAgree s) :
    headLevelsAgree (effectOf c s) := by
  have hs := (effectOf_straps_pending c s).1
  cases hc : reachesTape c with
  | false => exact (effectOf_tapeSame s hc).levels.headLevelsAgree hs h
  | true =>
    cases c with
    | floorTick =>
      have hidle : levelsSame (idleTick (tickBoard s)) (floorTick s) := by
        refine (levelsSame.trans ?_ (floorTick_tapeSame s).levels)
        exact ⟨silenceTick_paceLevel _, rfl⟩
      refine headLevelsAgree_of_levels hs h fun hl => ?_
      rw [effectOf, hidle.1, hidle.2]
      exact idleTick_levels (s := tickBoard s) hl
    | crawlStep => exact (crawlStep_levelsSame s).headLevelsAgree hs h
    | pendingPaceQueued => exact (meetPendingPace_levelsSame s).headLevelsAgree hs h
    | print f =>
      refine handled_map_keeps h h h fun m _ _ => ?_
      have hdesk := (tablePrint_desk s.dispatched m).trans (firePrint_desk _ m)
      refine headLevelsAgree_of_levels (s := s) ((composerPrint_tape _ m).straps.trans hdesk.straps) h
        fun hl => composerPrint_levels m ?_
      rw [hdesk.crawl, hdesk.composer]
      exact hl
    | status f =>
      refine handled_map_keeps h h h fun m _ _ => ?_
      have hdesk := setRecordState_desk s.dispatched m.symbol m.state
      refine headLevelsAgree_of_levels (s := s) ((composerStatus_tape _ m).straps.trans hdesk.straps) h
        fun hl => composerStatus_levels m ?_
      rw [hdesk.crawl, hdesk.composer]
      exact hl
    | cancel f =>
      refine handled_map_keeps h h h fun m _ _ => ?_
      exact headLevelsAgree_of_levels (s := s) (composerCancel_tape _ m).straps h
        fun hl => composerCancel_levels (s := tableCancel m s.dispatched) m hl
    | dayStart f => exact handled_map_keeps h h h fun _ _ _ => dayStart_headLevels _
    | handoff f =>
      refine handled_keeps h h h fun g hg _ hl => ?_
      obtain ⟨m, -, hh, rfl⟩ := handoffEffect_some hg
      exact headLevelsAgree_of_follower (s := s) (takeHandoff_tape s.dispatched m).straps hh
    | pace f =>
      refine handled_map_keeps h h h fun m _ _ => ?_
      unfold crawlPace
      split_ifs with hp
      · refine headLevelsAgree_of_follower (s := s) (takePace_tape s.dispatched m).straps ?_
        simp only [followsPace, Bool.and_eq_true, bne_iff_ne] at hp
        exact isHead_of_follows ⟨by simp_all [State.dispatched], hp.2⟩
      · exact h
    | printTake => exact headLevelsAgree_of_levels hs h printTake_levels
    | cancelTake => exact headLevelsAgree_of_levels hs h cancelTake_levels
    | statusTake => exact headLevelsAgree_of_levels hs h statusTake_levels
    | idleTimerExpiry =>
      simp only [effectOf]
      split_ifs
      · exact headLevelsAgree_of_levels (s := s) rfl h levelsAgree_idleExpiry
      · exact h
    | idleDecay => exact headLevelsAgree_of_levels hs h idleDecay_levels
    | silenceCoasting => exact levelsSame.headLevelsAgree ⟨coastingExpiry_paceLevel _, rfl⟩ hs h
    | silenceWaiting => exact levelsSame.headLevelsAgree ⟨waitingExpiry_paceLevel _, rfl⟩ hs h
    | _ => cases hc

/-- Settles O12: the composer's changes one by one; a Handoff and a Pace are taken by no head. -/
theorem stepKeepsHeadLevels : Obligations.StepKeepsHeadLevels := by
  intro s t h hst
  exact step_keeps (P := headLevelsAgree) (fun _ _ h => h) (fun _ h => h)
    (fun pins s _ => (requestAtZero_levelsSame _).headLevelsAgree (requestAtZero_straps _)
      (powerOn_headLevels (readStraps pins) s))
    (fun s _ h => (timerClock_levelsSame s).headLevelsAgree (timerClock_tape s).straps h)
    (fun c _ _ h => effectOf_headLevels c h) h hst

end Sys2Proof.Machine
end

section
/-!
PROOFS. The state after reset, the assertion of the pin and the commands of one threshold each: what they
change is read off their definitions, case by case.
-/
namespace Sys2Proof.Machine

/-- A command in service answers its effect. -/
theorem exec_next_of {c : Instr} {s t : State} (hr : s.resetAsserted = false) (h : effectOf c s = t)
    (hc : exec c s = inService s (effectOf c) := by rfl) : exec c s = .next t := by
  rw [hc, inService_of_running hr, h]

/-! ### The state after reset -/

theorem term_reset (t : Fin 4) : State.reset.term t = Terminal.atReset := by
  fin_cases t <;> rfl

theorem wellKept_atReset : Terminal.atReset.wellKept := by
  simp [Terminal.wellKept, Terminal.atReset]

theorem refsOn_atReset (y : Symbol) : Terminal.atReset.refsOn y = 0 := by
  simp [Terminal.refsOn, Terminal.atReset]

theorem linkOf_reset (c : Fin 16) : State.reset.linkOf c = none := by
  fin_cases c <;> rfl

theorem terminalsWellKept_reset : terminalsWellKept State.reset := fun t => by
  rw [term_reset]
  exact wellKept_atReset

theorem pinsFollowLinks_reset : pinsFollowLinks State.reset := by
  refine ⟨List.nodup_nil, rfl, by simp [State.reset], fun c y hy => ?_⟩
  rw [linkOf_reset] at hy
  cases hy

theorem refsFollowTerminals_reset : refsFollowTerminals State.reset := by
  refine ⟨List.nodup_nil, terminalsWellKept_reset, by simp [State.reset], fun y hy => ?_,
    fun t => ?_, fun t _ => ?_⟩
  · simp [State.refsOn, term_reset, refsOn_atReset] at hy
  · rw [term_reset]
    exact List.nodup_nil
  · rw [term_reset]
    exact ⟨rfl, rfl⟩

/-- Settles O4: the reset state holds no record, no ask and no frame. -/
theorem resetMeetsInvariants : Obligations.ResetMeetsInvariants := by
  refine ⟨?_, terminalsWellKept_reset, ?_, pinsFollowLinks_reset, refsFollowTerminals_reset,
    ⟨Nat.zero_le _, pinsFollowLinks_reset, refsFollowTerminals_reset⟩, ?_, ?_, ?_, ?_⟩
  · simp [withinCapacity, State.reset, Line.atReset, Composer.atReset, Crawl.atReset]
  · refine ⟨fun k => ?_, le_refl _, ?_⟩
    · cases k <;> exact Nat.zero_le _
    · simp [State.reset]
  · simp [crawlByRole, State.isHead, State.reset, Straps.allZero, Crawl.atReset]
  · simp [headLevelsAgree, State.isHead, State.reset, Straps.allZero]
  · simp [lampsWithinBudget, State.reset, Straps.allZero, budgetAt]
  · simp [listenOnlySilent, State.reset, Line.atReset, Crawl.atReset]

/-! ### The assertion of the pin (R197) -/

theorem drivesLine_of_reset {s : State} (h : s.resetAsserted = true) : drivesLine s = false := by
  simp [drivesLine, drivenLevels, h]

theorem boardLampOn_of_dark {s : State} (h : s.lamps.result = none) (cell : Fin 16) (k slot n : Nat) :
    boardLampOn s cell k slot n = false := by
  simp [boardLampOn, h]

theorem ribbonDotOn_of_dark {s : State} (h : s.lamps.result = none) (column : Nat) (row : Fin 7)
    (slot n : Nat) : ribbonDotOn s column row slot n = false := by
  simp [ribbonDotOn, h]

/-- Settles O19: the pins are a function of what `assertReset` sets, and it sets nothing else. -/
theorem resetAssertDarkensOutputs : Obligations.ResetAssertDarkensOutputs := by
  intro s
  refine ⟨assertReset s, rfl, rfl, rfl, drivesLine_of_reset rfl, boardLampOn_of_dark rfl,
    ribbonDotOn_of_dark rfl, fun u => ?_, rfl, rfl, rfl, rfl, rfl, rfl, rfl, rfl, rfl, rfl, rfl, rfl⟩
  exact Quad.get_map Terminal.silenced s.terminals u

/-! ### Thresholds (R55, R124, R141, R142, R205) -/

theorem patternEnd_eq (c : CellRecord) : c.patternEnd =
    if c.repeats then { c with position := 1 }
    else { c with pattern := .steady, position := 0, repeats := false } := rfl

theorem endIfDue_eq (c : CellRecord) : c.endIfDue =
    if c.pattern ≠ .steady ∧ c.pattern.length ≤ c.position then c.patternEnd else c := by
  simp [CellRecord.endIfDue, CellRecord.exhausted]

theorem beeperExpiry_eq (m : Terminal) :
    m.beeperExpiry = { m with beeperOn := if m.beeper = 0 then false else m.beeperOn } := by
  unfold Terminal.beeperExpiry
  split_ifs <;> rfl

theorem messageExpiry_eq (m : Terminal) :
    m.messageExpiry = { m with message := if m.messageTimer = 0 then none else m.message } := by
  unfold Terminal.messageExpiry
  split_ifs <;> rfl

/-- The hand-over to one cell. -/
theorem onCells_singleton (s : State) (n : Fin 16) (f : CellRecord → CellRecord) :
    s.onCells [n] f = s.withCells (s.cells.map fun c => if c.number = n then f c else c) := by
  simp [State.onCells]

/-- Settles O22: each threshold's test is made by its own function. -/
theorem thresholdsActAlone : Obligations.ThresholdsActAlone := by
  intro s hr
  refine ⟨fun cell => exec_next_of hr ?_, fun u => exec_next_of hr ?_, fun u => exec_next_of hr ?_,
    exec_next_of hr rfl, exec_next_of hr (lightAtLimit_eq s)⟩
  · refine (onCells_singleton s cell _).trans (congrArg s.withCells ?_)
    refine List.map_congr_left fun c _ => ?_
    rw [endIfDue_eq, patternEnd_eq]
    split_ifs <;> simp_all
  · exact congrArg (s.setTerm u) (beeperExpiry_eq _)
  · exact congrArg (s.setTerm u) (messageExpiry_eq _)

/-! ### The pending Pace request (R110) -/

theorem generalFull_of_lt {s : State} (h : s.line.generalQueue.length < 4) : s.generalFull = false :=
  decide_eq_false (Nat.not_le.2 h)

theorem generalFull_of_le {s : State} (h : 4 ≤ s.line.generalQueue.length) : s.generalFull = true :=
  decide_eq_true h

/-- Settles O47: by the three tests of `meetPendingPace`. -/
theorem pendingPaceIsQueued : Obligations.PendingPaceIsQueued := by
  intro s hr
  refine ⟨fun r hribbon hpending hlen => exec_next_of hr ?_, fun h => exec_next_of hr ?_⟩
  · simp only [effectOf, meetPendingPace, hribbon, hpending, generalFull_of_lt hlen]
    rfl
  · rcases meetPendingPace_cases s with e | ⟨r, hribbon, hpending, hfull, -⟩
    · exact e
    · rcases h with h | h | h
      · simp [h] at hpending
      · simp [generalFull_of_le h] at hfull
      · simp [h] at hribbon

/-! ### The silence timer (R92, R93) -/

section Silence
variable {c : Crawl} {n : Nat}

theorem coastingExpiry_of_due (hs : c.silence = some n) (hr : c.segState = .running) (hn : 128 ≤ n) :
    c.coastingExpiry = { c with segState := .coasting } := by
  simp only [Crawl.coastingExpiry, hs, hr, hn, if_true]

theorem coastingExpiry_of_not_due
    (h : c.silence = none ∨ c.segState ≠ .running ∨ ∃ n, c.silence = some n ∧ n < 128) :
    c.coastingExpiry = c := by
  unfold Crawl.coastingExpiry
  split
  · rename_i m hr hs
    rw [if_neg]
    rcases h with h | h | ⟨n, h, hn⟩
    · simp [h] at hs
    · exact absurd hr h
    · simp only [h, Option.some.injEq] at hs
      omega
  · rfl

theorem waitingExpiry_of_due (hs : c.silence = some n) (hr : c.segState = .coasting) (hn : 512 ≤ n) :
    c.waitingExpiry = { c with segState := .waiting, hold := [], slew := 0, silence := none } := by
  simp only [Crawl.waitingExpiry, hs, hr, hn, if_true]
  rfl

theorem waitingExpiry_of_not_due
    (h : c.silence = none ∨ c.segState ≠ .coasting ∨ ∃ n, c.silence = some n ∧ n < 512) :
    c.waitingExpiry = c := by
  unfold Crawl.waitingExpiry
  split
  · rename_i m hr hs
    rw [if_neg]
    rcases h with h | h | ⟨n, h, hn⟩
    · simp [h] at hs
    · exact absurd hr h
    · simp only [h, Option.some.injEq] at hs
      omega
  · rfl

theorem countSilence_of_lt (hs : c.silence = some n) (hn : n < 512) :
    c.countSilence = { c with silence := some (n + 1) } := by
  simp only [Crawl.countSilence, hs, hn, if_true]

/-- A tick that ends no state counts. -/
theorem silenceTick_of_not_due (hs : c.silence = some n) (hn : n < 511)
    (h : c.segState ≠ .running ∨ n < 127) :
    c.silenceTick = { c with silence := some (n + 1) } := by
  rw [Crawl.silenceTick, countSilence_of_lt hs (by omega),
    waitingExpiry_of_not_due (.inr (.inr ⟨n + 1, rfl, by omega⟩)), coastingExpiry_of_not_due]
  exact h.elim (fun hr => .inr (.inl hr)) fun hn => .inr (.inr ⟨n + 1, rfl, by omega⟩)

theorem silenceTick_of_running (hs : c.silence = some 127) (hr : c.segState = .running) :
    c.silenceTick = { c with silence := some 128, segState := .coasting } := by
  rw [Crawl.silenceTick, countSilence_of_lt hs (by omega),
    waitingExpiry_of_not_due (.inr (.inl (by simp [hr]))),
    coastingExpiry_of_due (c := { c with silence := some 128 }) rfl hr
      (le_refl _)]

theorem silenceTick_of_coasting (hs : c.silence = some 511) (hr : c.segState = .coasting) :
    c.silenceTick = { c with segState := .waiting, hold := [], slew := 0, silence := none } := by
  rw [Crawl.silenceTick, countSilence_of_lt hs (by omega), waitingExpiry_of_due
    (c := { c with silence := some 512 }) rfl hr (le_refl _), coastingExpiry_of_not_due (.inl rfl)]

end Silence

/-- Settles O48: the two expiries where they are due and where not, and the tick as a count and both. -/
theorem silenceEndsRunning : Obligations.SilenceEndsRunning := by
  intro s hr
  exact ⟨fun n hs hseg hn => exec_next_of hr (congrArg s.withCrawl (coastingExpiry_of_due hs hseg hn)),
    fun n hs hseg hn => exec_next_of hr (congrArg s.withCrawl (waitingExpiry_of_due hs hseg hn)),
    fun h => exec_next_of hr (congrArg s.withCrawl (coastingExpiry_of_not_due h)),
    fun h => exec_next_of hr (congrArg s.withCrawl (waitingExpiry_of_not_due h)),
    fun n hs _ hn => silenceTick_of_not_due hs (by omega) (.inr hn),
    silenceTick_of_running, fun n hs hseg hn => silenceTick_of_not_due hs hn (.inl (by simp [hseg])),
    silenceTick_of_coasting⟩

end Sys2Proof.Machine
end

section
/-!
PROOFS. A key at a terminal that takes it at once (R139, R142): the message is cleared, and the key acts by
the terminal's state. The statements about the keys are read off the tables of chapter 7, state by state.
-/
namespace Sys2Proof.Machine

/-! ### A key taken at once -/

/-- R142: terminal u with its message cleared, as a taken key finds it. -/
def State.hushed (s : State) (u : Fin 4) : State := s.onTerm u Terminal.hush

@[simp] theorem State.term_hushed (s : State) (u : Fin 4) : (s.hushed u).term u = (s.term u).hush :=
  State.term_onTerm_self _ _ _

section Hush
variable (m : Terminal)

@[simp] theorem Terminal.hush_entry : m.hush.entry = m.entry := rfl
@[simp] theorem Terminal.hush_whole : m.hush.whole = m.whole := rfl
@[simp] theorem Terminal.hush_fracMark : m.hush.fracMark = m.fracMark := rfl
@[simp] theorem Terminal.hush_eighths : m.hush.eighths = m.eighths := rfl
@[simp] theorem Terminal.hush_watch : m.hush.watch = m.watch := rfl
@[simp] theorem Terminal.hush_watches (y : Symbol) : m.hush.watches y = m.watches y := rfl
@[simp] theorem Terminal.hush_limitValue : m.hush.limitValue = m.limitValue := rfl
@[simp] theorem Terminal.hush_ask : m.hush.ask = m.ask := rfl

end Hush

/-- A change of terminal u of a state whose other terminals are those of s. -/
theorem onTerm_of_terminals {s v : State} {u : Fin 4} {m : Terminal} (f : Terminal → Terminal)
    (h : v.terminals = s.terminals.set u m) :
    v.onTerm u f = v.withTerminals (s.terminals.set u (f m)) := by
  rw [State.onTerm, State.setTerm, State.term, h, Quad.get_set_self, Quad.set_set]

theorem hushed_onTerm (s : State) (u : Fin 4) (f : Terminal → Terminal) :
    (s.hushed u).onTerm u f = s.setTerm u (f (s.term u).hush) :=
  onTerm_of_terminals f rfl

/-- A change of terminal u after one of the table. -/
theorem hushed_withTable_onTerm (s : State) (u : Fin 4) (table : List QuoteRecord)
    (f : Terminal → Terminal) : ((s.hushed u).withTable table).onTerm u f =
      (s.withTable table).setTerm u (f (s.term u).hush) :=
  onTerm_of_terminals f rfl

/-- R141, R142: a refused key's terminal: no message, and a reject beep. -/
def Terminal.refused (m : Terminal) : Terminal :=
  { m with message := none, messageTimer := 0, beeper := max m.beeper 2, beeperOn := true }

theorem rejectBeep_hushed (s : State) (u : Fin 4) :
    rejectBeep u (s.hushed u) = s.setTerm u (s.term u).refused := hushed_onTerm s u _

theorem takeKey_of_no_alert {u : Fin 4} {k : Key} {s : State}
    (h : k = .clear → (s.term u).alerts = []) : takeKey u k s = keyByState u k (s.hushed u) := by
  refine if_neg fun hk => hk.2 ?_
  exact (congrArg Terminal.alerts (State.term_hushed s u)).trans (h hk.1)

theorem takeKey_clear_of_alert {u : Fin 4} {s : State} (h : (s.term u).alerts ≠ []) :
    takeKey u .clear s = (s.hushed u).onTerm u (fun m => { m with alerts := m.alerts.tail }) := by
  refine if_pos ⟨rfl, fun hn => h ?_⟩
  exact (congrArg Terminal.alerts (State.term_hushed s u)).symm.trans hn

section TakesKeys
variable {u : Fin 4} {k : Key} {y : Symbol} {s : State}

/-- A key's command offers the key. -/
theorem exec_keyCommand (hr : s.resetAsserted = false) (u : Fin 4) (k : Key) :
    exec (keyCommand u k) s = .next (offerKey u k s) := by
  cases k <;> exact inService_of_running hr _

theorem exec_key (h : takesKeys u s) (hk : k = .clear → (s.term u).alerts = []) :
    exec (keyCommand u k) s = .next (keyByState u k (s.hushed u)) := by
  rw [exec_keyCommand h.1, offerKey_of_takesKeys k h, takeKey_of_no_alert hk]

theorem keyByState_idle (hst : (s.term u).state = .idle) :
    keyByState u k (s.hushed u) = keyIdle u k (s.hushed u) := by
  have h : ((s.hushed u).term u).state = .idle := by rw [State.term_hushed]; exact hst
  simp only [keyByState, h]

theorem keyByState_keying (hst : (s.term u).state = .keying) :
    keyByState u k (s.hushed u) = keyKeying u k (s.hushed u) := by
  have h : ((s.hushed u).term u).state = .keying := by rw [State.term_hushed]; exact hst
  simp only [keyByState, h]

theorem keyByState_showing (hst : (s.term u).state = .showing) (hy : (s.term u).shown = some y) :
    keyByState u k (s.hushed u) = keyShowing u k y (s.hushed u) := by
  have h : ((s.hushed u).term u).state = .showing := by rw [State.term_hushed]; exact hst
  have h' : ((s.hushed u).term u).shown = some y := by rw [State.term_hushed]; exact hy
  simp only [keyByState, h, h']

theorem keyByState_limitEntry (hst : (s.term u).state = .limitEntry) (hy : (s.term u).shown = some y) :
    keyByState u k (s.hushed u) = keyLimitEntry u k y (s.hushed u) := by
  have h : ((s.hushed u).term u).state = .limitEntry := by rw [State.term_hushed]; exact hst
  have h' : ((s.hushed u).term u).shown = some y := by rw [State.term_hushed]; exact hy
  simp only [keyByState, h, h']

theorem exec_key_idle (h : takesKeys u s) (hst : (s.term u).state = .idle)
    (hk : k = .clear → (s.term u).alerts = []) :
    exec (keyCommand u k) s = .next (keyIdle u k (s.hushed u)) := by
  rw [exec_key h hk, keyByState_idle hst]

theorem exec_key_keying (h : takesKeys u s) (hst : (s.term u).state = .keying)
    (hk : k = .clear → (s.term u).alerts = []) :
    exec (keyCommand u k) s = .next (keyKeying u k (s.hushed u)) := by
  rw [exec_key h hk, keyByState_keying hst]

theorem exec_key_showing (h : takesKeys u s) (hst : (s.term u).state = .showing)
    (hy : (s.term u).shown = some y) (hk : k = .clear → (s.term u).alerts = []) :
    exec (keyCommand u k) s = .next (keyShowing u k y (s.hushed u)) := by
  rw [exec_key h hk, keyByState_showing hst hy]

theorem exec_key_limitEntry (h : takesKeys u s) (hst : (s.term u).state = .limitEntry)
    (hy : (s.term u).shown = some y) (hk : k = .clear → (s.term u).alerts = []) :
    exec (keyCommand u k) s = .next (keyLimitEntry u k y (s.hushed u)) := by
  rw [exec_key h hk, keyByState_limitEntry hst hy]

/-- R148: the terminal stops showing its record and goes on as f says. -/
theorem stopShowing_hushed (hy : (s.term u).shown = some y) (f : Terminal → Terminal) :
    (stopShowing u (s.hushed u)).onTerm u f =
      (s.withTable (updateRecord y QuoteRecord.dropRef s.table)).setTerm u
        (f { (s.term u).hush with shown := none }) := by
  have h : ((s.hushed u).term u).shown = some y := by rw [State.term_hushed]; exact hy
  simp only [stopShowing, h, State.onTerm_onTerm]
  exact hushed_withTable_onTerm s u _ _

end TakesKeys

/-! ### Letters and RUB (R144, R145, R148, R151) -/

theorem dropLast_eq_nil_iff {α : Type} (l : List α) : l.dropLast = [] ↔ l.length ≤ 1 := by
  rw [← List.length_eq_zero_iff, List.length_dropLast]
  omega

/-- Settles O25: a letter and RUB at the states that have a row for them. -/
theorem letterAndRubKeys : Obligations.LetterAndRubKeys := by
  refine ⟨fun u l s h => ⟨fun hst => ?_, fun hst hlen => ?_, fun hst hlen => ?_, fun y hst hy => ?_⟩,
    fun u s h => ⟨fun hst => ?_, fun y hst hy => ?_⟩⟩
  · refine (exec_key_idle (k := .letter l) h hst nofun).trans (congrArg _ ?_)
    rw [keyIdle]
    exact hushed_onTerm s u _
  · refine (exec_key_keying (k := .letter l) h hst nofun).trans (congrArg _ ?_)
    rw [keyKeying, State.term_hushed, Terminal.hush_entry, if_pos hlen]
    exact hushed_onTerm s u _
  · refine (exec_key_keying (k := .letter l) h hst nofun).trans (congrArg _ ?_)
    rw [keyKeying, State.term_hushed, Terminal.hush_entry, if_neg (Nat.not_lt.2 hlen)]
    exact rejectBeep_hushed s u
  · refine (exec_key_showing (k := .letter l) h hst hy nofun).trans (congrArg _ ?_)
    rw [keyShowing]
    exact stopShowing_hushed hy _
  · refine (exec_key_keying (k := .rub) h hst nofun).trans (congrArg _ ?_)
    rw [keyKeying, hushed_onTerm, Terminal.rubLetter]
    simp only [dropLast_eq_nil_iff]
    rfl
  · have hrub := exec_key_limitEntry (k := .rub) h hst hy nofun
    simp only [keyLimitEntry, limitRub, State.term_hushed, Terminal.hush_eighths, Terminal.hush_fracMark,
      Terminal.hush_whole] at hrub
    refine ⟨fun he => hrub.trans (congrArg _ ?_), fun he hf => hrub.trans (congrArg _ ?_),
      fun he hf hw => hrub.trans (congrArg _ ?_), fun he hf hw => hrub.trans (congrArg _ ?_)⟩
    · rw [if_pos he]
      exact hushed_onTerm s u _
    · rw [if_neg (by simp [he]), if_pos hf]
      exact hushed_onTerm s u _
    · rw [if_neg (by simp [he]), if_neg (by simp [hf]), if_neg hw]
      exact hushed_onTerm s u _
    · rw [if_neg (by simp [he]), if_neg (by simp [hf]), if_pos hw]
      exact rejectBeep_hushed s u

/-! ### Digits and FRACTION (R151) -/

/-- Settles O26: by `limitDigit`'s tests in order. -/
theorem limitEntryDigits : Obligations.LimitEntryDigits := by
  intro u d y s h hst hy
  have hdigit := exec_key_limitEntry (k := .digit d) h hst hy nofun
  have hfraction := exec_key_limitEntry (k := .fraction) h hst hy nofun
  simp only [keyLimitEntry, limitDigit, State.term_hushed, Terminal.hush_eighths, Terminal.hush_fracMark,
    Terminal.hush_whole] at hdigit hfraction
  refine ⟨fun hf he hw => hdigit.trans (congrArg _ ?_), fun e hf he hd => hdigit.trans (congrArg _ ?_),
    fun hrefuse => hdigit.trans (congrArg _ ?_), fun hf => hfraction.trans (congrArg _ ?_),
    fun hf => hfraction.trans (congrArg _ ?_)⟩
  · rw [if_neg (by simp [he]), if_neg (by simp [hf]), if_pos hw]
    exact hushed_onTerm s u _
  · have hlt : d.val < 8 := by omega
    have heq : (⟨d.val, hlt⟩ : Fin 8) = e := Fin.ext hd
    rw [if_neg (by simp [he]), if_pos hf, dif_pos hlt, heq]
    exact hushed_onTerm s u _
  · refine Eq.trans ?_ (rejectBeep_hushed s u)
    rcases hrefuse with he | ⟨hf, hd⟩ | ⟨hf, he, hw⟩
    · rw [if_pos he]
    · rw [if_pos hf, dif_neg (Nat.not_lt.2 hd), ite_self]
    · rw [if_neg (by simp [he]), if_neg (by simp [hf]), if_neg (Nat.not_lt.2 hw)]
  · rw [if_neg (by simp [hf])]
    exact hushed_onTerm s u _
  · rw [if_pos hf]
    exact rejectBeep_hushed s u

end Sys2Proof.Machine
end

section
/-!
PROOFS. The keys that reach the quote table, the line or the inquiry unit (R146, R149, R150, R152, R157 to
R160, R168 to R174), and the keys that are refused, ignored, queued or dropped (R139, R140).
-/
namespace Sys2Proof.Machine

/-! ### Records brought to the front (R26) -/

/-- A record changed and then brought to the front. -/
theorem moveToFront_updateRecord {z : Symbol} {f : QuoteRecord → QuoteRecord} {table : List QuoteRecord}
    {r : QuoteRecord} (hf : ∀ q, (f q).symbol = q.symbol) (hr : findRecord z table = some r) :
    moveToFront z (updateRecord z f table) = f r :: table.filter (fun q => q.symbol != z) := by
  unfold moveToFront
  rw [findRecord_updateRecord_self _ hf, hr]
  refine congrArg (f r :: ·) ?_
  rw [updateRecord, List.filter_map]
  refine Eq.trans (List.map_congr_left fun q hq => ?_) ((List.map_id _).trans (List.filter_congr fun q _ => ?_))
  · have hne : (fun q => q.symbol != z) (if q.symbol = z then f q else q) = true :=
      (List.mem_filter.1 hq).2
    by_cases hs : q.symbol = z
    · simp [hs, hf] at hne
    · rw [if_neg hs]
      rfl
  · by_cases hs : q.symbol = z <;> simp [hs, hf]

/-- R24, R26: what a terminal's showing of a held record leaves of the table. -/
theorem beginShowing_table {z : Symbol} {s : State} {r : QuoteRecord}
    (hr : findRecord z s.table = some r) : beginShowing z s =
      s.withTable ({ r with refs := r.refs + 1 } :: s.table.filter (fun q => q.symbol != z)) :=
  congrArg s.withTable (moveToFront_updateRecord (f := QuoteRecord.addRef) (fun _ => rfl) hr)

/-! ### QUOTE in KEYING (R146) -/

/-- Settles O27: the four rows of `quoteEntry`. -/
theorem quoteInKeying : Obligations.QuoteInKeying := by
  intro u s h hst
  have hquote := exec_key_keying (k := .quote) h hst nofun
  simp only [keyKeying, State.term_hushed, Terminal.hush_entry] at hquote
  refine ⟨fun r hr => hquote.trans (congrArg _ ?_), fun hr hl => hquote.trans (congrArg _ ?_),
    fun hr hl hlen => hquote.trans (congrArg _ ?_), fun hr hl hlen => hquote.trans (congrArg _ ?_)⟩
  · have hheld : (findRecord (entrySymbol (s.term u).entry) (s.hushed u).table).isSome :=
      Option.isSome_of_eq_some hr
    rw [quoteEntry, if_pos hheld, showEntry, beginShowing_table (s := s.hushed u) hr]
    exact hushed_withTable_onTerm s u _ _
  all_goals
    have hheld : ¬(findRecord (entrySymbol (s.term u).entry) (s.hushed u).table).isSome :=
      (Option.not_isSome_iff_eq_none).2 hr
    rw [quoteEntry, if_neg hheld]
  · rw [if_pos (show (s.hushed u).listenOnly = true from hl)]
    exact hushed_onTerm s u _
  · rw [if_neg (show ¬(s.hushed u).listenOnly = true by exact Bool.eq_false_iff.1 hl),
      if_pos (generalFull_of_le (s := s.hushed u) hlen)]
    exact hushed_onTerm s u _
  · rw [if_neg (show ¬(s.hushed u).listenOnly = true by exact Bool.eq_false_iff.1 hl),
      if_neg (Bool.eq_false_iff.1 (generalFull_of_lt (s := s.hushed u) hlen))]
    rw [openAsk]
    exact onTerm_of_terminals (s := s) (m := (s.term u).hush) _ rfl

/-! ### Watch lists (R149, R168 to R170) -/

section Watching
variable {u : Fin 4} {y : Symbol} {s : State}

theorem addWatch_hushed (e : WatchEntry) : addWatch u e (s.hushed u) =
    (s.withTable (updateRecord e.symbol QuoteRecord.addRef s.table)).setTerm u
      { (s.term u).hush with watch := (s.term u).watch ++ [e] } :=
  hushed_withTable_onTerm s u _ _

/-- Settles O30: the tests of WATCH and of UNWATCH. -/
theorem watchKeysInShowing : Obligations.WatchKeysInShowing := by
  intro u y s h hst hy
  have hwatch := exec_key_showing (k := .watch) h hst hy nofun
  have hunwatch := exec_key_showing (k := .unwatch) h hst hy nofun
  simp only [keyShowing, watchShown, unwatchShown, State.term_hushed, Terminal.hush_watches,
    Terminal.hush_watch] at hwatch hunwatch
  refine ⟨fun hfull => hwatch.trans (congrArg _ ?_), fun hw hlen => hwatch.trans (congrArg _ ?_),
    fun hw => hunwatch.trans (congrArg _ ?_), fun hw => hunwatch.trans (congrArg _ ?_)⟩
  · refine Eq.trans ?_ (rejectBeep_hushed s u)
    rcases hfull with hw | hlen
    · rw [if_pos hw]
    · rw [if_pos (show Config.watchSize ≤ _ from hlen), ite_self]
  · rw [if_neg (Bool.eq_false_iff.1 hw), if_neg (show ¬Config.watchSize ≤ _ from Nat.not_le.2 hlen)]
    exact addWatch_hushed _
  · rw [if_neg (Bool.eq_false_iff.1 hw)]
    exact rejectBeep_hushed s u
  · rw [if_pos hw]
    exact hushed_withTable_onTerm s u _ _

/-! ### QUOTE in LIMIT ENTRY (R152, R171) -/

theorem priceValid_iff (p : Nat) : priceValid p = true ↔ 1 ≤ p ∧ p ≤ 32767 := by
  exact decide_eq_true_iff

/-- A refused commit's terminal is back in SHOWING with a beep. -/
theorem rejectBeep_leaveLimit (s : State) (u : Fin 4) :
    (rejectBeep u (s.hushed u)).onTerm u Terminal.leaveLimit =
      s.setTerm u (s.term u).refused.leaveLimit := by
  rw [rejectBeep, State.onTerm_onTerm]
  exact hushed_onTerm s u _

/-- Settles O28: the value's range, and the rows of `commitLimit`. -/
theorem quoteCommitsLimit : Obligations.QuoteCommitsLimit := by
  intro u y r s h hst hy hr
  have hquote := exec_key_limitEntry (k := .quote) h hst hy nofun
  simp only [keyLimitEntry, limitQuote, State.term_hushed, Terminal.hush_limitValue] at hquote
  refine ⟨fun hv => hquote.trans (congrArg _ ?_), fun h1 h2 => ?_⟩
  · rw [if_neg ((priceValid_iff _).not.2 hv)]
    exact rejectBeep_hushed s u
  rw [if_pos ((priceValid_iff _).2 ⟨h1, h2⟩)] at hquote
  have hlast : (findRecord y (s.hushed u).table).bind QuoteRecord.last = r.last := by
    rw [show (s.hushed u).table = s.table from rfl, hr]
    rfl
  simp only [commitLimit, hlast, State.term_hushed, Terminal.hush_watches, Terminal.hush_watch] at hquote
  refine ⟨fun hrefuse => hquote.trans (congrArg _ ?_), fun l hl hp hw => hquote.trans (congrArg _ ?_),
    fun l hl hp hw hlen => hquote.trans (congrArg _ ?_)⟩
  · refine Eq.trans ?_ (rejectBeep_leaveLimit s u)
    refine congrArg (fun v => State.onTerm v u Terminal.leaveLimit) ?_
    rcases hrefuse with hl | ⟨l, hl, hp⟩ | ⟨hl, hw, hlen⟩
    · simp only [hl]
    · simp only [hl, hp, if_true]
    · obtain ⟨l, hl⟩ := Option.isSome_iff_exists.1 hl
      simp only [hl, hw, Bool.false_eq_true, if_false, if_pos (show Config.watchSize ≤ _ from hlen), ite_self]
  · simp only [hl, if_neg (Ne.symm hp), hw, if_true, State.onTerm_onTerm]
    exact hushed_onTerm s u _
  · simp only [hl, if_neg (Ne.symm hp), hw, Bool.false_eq_true, if_false,
      if_neg (show ¬Config.watchSize ≤ _ from Nat.not_le.2 hlen)]
    rw [addWatch_hushed, State.onTerm_eq, State.term_setTerm_self, State.setTerm_setTerm]
    rfl

/-! ### NEXT, LIMIT and QUOTE in SHOWING (R149, R150) -/

/-- R150: the target after the shown symbol's entry, wrapping to the first. -/
theorem nextTarget_of_watched {before after : List WatchEntry} {e : WatchEntry}
    (hb : ∀ w ∈ before, w.symbol ≠ y) (he : e.symbol = y) :
    nextTarget y (before ++ e :: after) = some (after.head?.getD ((before ++ [e]).headD e)).symbol := by
  have hdrop : (before ++ e :: after).dropWhile (fun w => w.symbol != y) = e :: after := by
    rw [List.dropWhile_append_of_pos (by simpa using hb)]
    simp [he]
  unfold nextTarget
  rw [hdrop]
  cases after with
  | cons a as => rfl
  | nil => cases before <;> rfl

/-- R150: the first entry, where the shown symbol is not watched. -/
theorem nextTarget_of_unwatched {watch : List WatchEntry} (h : ∀ w ∈ watch, w.symbol ≠ y) :
    nextTarget y watch = watch.head?.map WatchEntry.symbol := by
  have hdrop : watch.dropWhile (fun w => w.symbol != y) = [] :=
    List.dropWhile_eq_nil_iff.2 (by simpa using h)
  unfold nextTarget
  rw [hdrop]

theorem watches_eq_false {m : Terminal} : m.watches y = false ↔ ∀ w ∈ m.watch, w.symbol ≠ y := by
  simp [Terminal.watches]

theorem nextShown_hushed_none (ht : nextTarget y (s.term u).watch = none) :
    nextShown u y (s.hushed u) = rejectBeep u (s.hushed u) := by
  simp only [nextShown, State.term_hushed, Terminal.hush_watch, ht]

theorem nextShown_hushed_self (ht : nextTarget y (s.term u).watch = some y) :
    nextShown u y (s.hushed u) = s.hushed u := by
  simp only [nextShown, State.term_hushed, Terminal.hush_watch, ht, if_true]

/-- R150: NEXT to a held record other than the shown one. -/
theorem nextShown_hushed {z : Symbol} {r : QuoteRecord} (ht : nextTarget y (s.term u).watch = some z)
    (hz : z ≠ y) (hr : findRecord z s.table = some r) : nextShown u y (s.hushed u) =
      (s.withTable ({ r with refs := r.refs + 1 } ::
        (updateRecord y QuoteRecord.dropRef s.table).filter (fun q => q.symbol != z))).setTerm u
        { (s.term u).hush with shown := some z } := by
  simp only [nextShown, State.term_hushed, Terminal.hush_watch, ht, if_neg hz]
  rw [beginShowing_table (s := releaseRecord y (s.hushed u)) (r := r)]
  · exact hushed_withTable_onTerm s u _ _
  · exact (findRecord_updateRecord_of_ne (f := QuoteRecord.dropRef) _ (fun _ => rfl) hz).trans hr

/-- Settles O31: LIMIT and QUOTE act on the terminal alone, NEXT by its target. -/
theorem nextAndLimitInShowing : Obligations.NextAndLimitInShowing := by
  intro u y s h hst hy
  have hnext := exec_key_showing (k := .next) h hst hy nofun
  rw [keyShowing] at hnext
  refine ⟨?_, ?_, fun hw => hnext.trans (congrArg _ ?_),
    fun before after e z r hw hb he hz hne hr => hnext.trans (congrArg _ ?_),
    fun e es r hw hu hr => hnext.trans (congrArg _ ?_), fun e hw he => hnext.trans (congrArg _ ?_)⟩
  · refine (exec_key_showing (k := .limit) h hst hy nofun).trans (congrArg _ ?_)
    rw [keyShowing]
    exact hushed_onTerm s u _
  · exact exec_key_showing (k := .quote) h hst hy nofun
  · rw [nextShown_hushed_none (by rw [hw]; rfl)]
    exact rejectBeep_hushed s u
  · subst hz
    exact nextShown_hushed (by rw [hw]; exact nextTarget_of_watched hb he) hne hr
  · have hnot := watches_eq_false.1 hu
    refine nextShown_hushed ?_ (hnot e (by simp [hw])) hr
    rw [nextTarget_of_unwatched hnot, hw]
    rfl
  · exact nextShown_hushed_self (by
      rw [hw, ← he]
      exact nextTarget_of_watched (before := []) (after := []) (by simp) rfl)

end Watching

end Sys2Proof.Machine
end

section
/-!
PROOFS. CLEAR (R143, R160, R174), the keys that no state takes (R135, R139, R140), the timeout of an ask
(R159), and the debounce change that produces a key (R137, R138).
-/
namespace Sys2Proof.Machine

section Keys
variable {u : Fin 4} {k : Key} {y : Symbol} {s : State}

/-! ### CLEAR -/

/-- R140: in ASKING, CLEAR is taken at once. -/
theorem offerKey_clear_of_asking (ha : s.active u = true) (hst : (s.term u).state = .asking)
    (hlen : (s.term u).keyQueue.length < 4) : offerKey u .clear s = takeKey u .clear s := by
  rw [offerKey, if_pos ha, if_neg (show ¬Config.keyQueueSize ≤ _ from Nat.not_le.2 hlen), if_pos hst,
    if_pos rfl]

/-- R160: the abandoned ask ends, and the terminal is in IDLE. -/
theorem abandonAsk_hushed {a : Ask} (ha : (s.term u).ask = some a) :
    abandonAsk u (s.hushed u) = (s.withdraw (TxFrame.isAskOf u a.tag)).setTerm u
      { (s.term u).hush with ask := none, state := .idle, entry := [], keyQueue := [] } := by
  have h : ((s.hushed u).term u).ask = some a := by rw [State.term_hushed]; exact ha
  simp only [abandonAsk, endAsk, h, State.onTerm_onTerm]
  exact onTerm_of_terminals (s := s) (m := (s.term u).hush) _ rfl

/-- Settles O29: the acknowledgement comes before the states. -/
theorem clearKeyByState : Obligations.ClearKeyByState := by
  intro u s hr hact
  refine ⟨fun htake hal => ?_, fun a hst hlen hal ha => ?_, fun hst hq hal => ?_,
    fun y hst hq hal hy => ?_, fun y hst hq hal hy => ?_⟩
  · have hoffer : offerKey u .clear s = takeKey u .clear s := by
      rcases htake with ⟨hst, hlen⟩ | ⟨hst, hq⟩
      · exact offerKey_clear_of_asking hact hst hlen
      · exact offerKey_of_takesKeys .clear ⟨hr, hact, hst, hq⟩
    refine (exec_keyCommand hr u .clear).trans (congrArg _ ?_)
    rw [hoffer, takeKey_clear_of_alert hal]
    exact hushed_onTerm s u _
  · have h : ((s.hushed u).term u).state = .asking := by rw [State.term_hushed]; exact hst
    refine (exec_keyCommand hr u .clear).trans (congrArg _ ?_)
    rw [offerKey_clear_of_asking hact hst hlen, takeKey_of_no_alert fun _ => hal]
    simp only [keyByState, h, if_true]
    exact abandonAsk_hushed ha
  · have htake : takesKeys u s := ⟨hr, hact, by simp [hst], hq⟩
    refine (exec_key_keying (k := .clear) htake hst fun _ => hal).trans (congrArg _ ?_)
    rw [keyKeying]
    exact hushed_onTerm s u _
  · have htake : takesKeys u s := ⟨hr, hact, by simp [hst], hq⟩
    refine (exec_key_showing (k := .clear) htake hst hy fun _ => hal).trans (congrArg _ ?_)
    rw [keyShowing]
    exact stopShowing_hushed hy _
  · have htake : takesKeys u s := ⟨hr, hact, by simp [hst], hq⟩
    refine (exec_key_limitEntry (k := .clear) htake hst hy fun _ => hal).trans (congrArg _ ?_)
    rw [keyLimitEntry]
    exact hushed_onTerm s u _

/-! ### Keys refused, ignored, queued and dropped -/

theorem not_clear_of_refuses {st : TermState} (h : refuses st k = true) : k ≠ .clear := by
  rintro rfl
  cases st <;> cases h

/-- R145, R148, R151: a key that a state refuses beeps. -/
theorem keyByState_of_refuses (h : refuses (s.term u).state k = true)
    (hy : (s.term u).state = .keying ∨ (s.term u).shown = some y) :
    keyByState u k (s.hushed u) = rejectBeep u (s.hushed u) := by
  cases hst : (s.term u).state with
  | idle => rw [hst] at h; cases k <;> cases h
  | asking => rw [hst] at h; cases k <;> cases h
  | keying =>
    rw [keyByState_keying hst]
    rw [hst] at h
    cases k <;> simp_all [refuses, keyKeying]
  | showing =>
    rw [keyByState_showing hst (hy.resolve_left (by simp [hst]))]
    rw [hst] at h
    cases k <;> simp_all [refuses, keyShowing]
  | limitEntry =>
    rw [keyByState_limitEntry hst (hy.resolve_left (by simp [hst]))]
    rw [hst] at h
    cases k <;> simp_all [refuses, keyLimitEntry]

/-- Settles O32: each of `offerKey`'s tests, and the keys of `refuses`. -/
theorem refusedIgnoredAndQueuedKeys : Obligations.RefusedIgnoredAndQueuedKeys := by
  intro u k s hr
  have hexec := exec_keyCommand hr u k
  refine ⟨fun y h href hy => ?_, fun h hst hl hc => ?_, fun ha hst hlen hk => hexec.trans (congrArg _ ?_),
    fun ha hlen => hexec.trans (congrArg _ ?_), fun ha => hexec.trans (congrArg _ ?_)⟩
  · rw [exec_key h fun hc => absurd hc (not_clear_of_refuses href), keyByState_of_refuses href hy]
    exact congrArg _ (rejectBeep_hushed s u)
  · rw [exec_key_idle h hst hc]
    cases k with
    | letter l => exact absurd rfl (hl l)
    | _ => rfl
  · rw [offerKey, if_pos ha, if_neg (show ¬Config.keyQueueSize ≤ _ from Nat.not_le.2 hlen), if_pos hst,
      if_neg hk]
    rfl
  · rw [offerKey, if_pos ha, if_pos (show Config.keyQueueSize ≤ _ from hlen)]
    rfl
  · rw [offerKey, if_neg (Bool.eq_false_iff.1 ha)]

/-! ### The timeout of an ask (R159) -/

theorem askDue_of_ask {a : Ask} (ha : (s.term u).ask = some a) :
    askDue u s = (a.deadline == s.tickCount) := by
  simp only [askDue, ha]

theorem timeoutAsk_of_due {a : Ask} (ha : (s.term u).ask = some a) (hd : a.deadline = s.tickCount) :
    timeoutAsk u s = ((s.count .asksTimedOut).withdraw (TxFrame.isAskOf u a.tag)).setTerm u
      { s.term u with ask := none, state := .idle, entry := [], keyQueue := [],
                      message := some .noQuote, messageTimer := 40 } := by
  rw [timeoutAsk, if_pos (by rw [askDue_of_ask ha, hd, beq_self_eq_true])]
  simp only [endAsk, ha]
  exact onTerm_of_terminals (s := s) (m := { s.term u with ask := none }) _ rfl

theorem timeoutAsk_of_not_due (h : ∀ a, (s.term u).ask = some a → a.deadline ≠ s.tickCount) :
    timeoutAsk u s = s := by
  refine if_neg ?_
  cases ha : (s.term u).ask with
  | none => simp [askDue, ha]
  | some a => simp [askDue_of_ask ha, h a ha]

/-- Settles O23: `timeoutAsk` where it is due and where not. -/
theorem askTimesOut : Obligations.AskTimesOut := fun _u _s hr =>
  ⟨fun _a ha hd => exec_next_of hr (timeoutAsk_of_due ha hd),
    fun h => exec_next_of hr (timeoutAsk_of_not_due h)⟩

/-! ### A debounce change (R137) -/

section Debouncing
variable {pos : Nat} {d : Debounce}

theorem debounce_getD (hd : (s.term u).debounce[pos]? = some d) :
    (s.term u).debounce.getD pos ⟨false, 0⟩ = d := by
  rw [List.getD_eq_getElem?_getD, hd, Option.getD_some]

theorem flipPosition_eq_set {ds : List Debounce} (hd : ds[pos]? = some d) :
    flipPosition pos ds = ds.set pos { down := !d.down, count := 0 } := by
  rw [flipPosition, List.modify_eq_set_getElem?, hd]
  rfl

theorem debouncePosition_of_due (ha : s.active u = true) (hp : pos < 44)
    (hd : (s.term u).debounce[pos]? = some d) (hc : 2 ≤ d.count) :
    debouncePosition u pos s =
      if d.down || (s.term u).ghostLock then
        s.setTerm u { s.term u with
          debounce := (s.term u).debounce.set pos { down := !d.down, count := 0 } }
      else offerCode u (s.setTerm u { s.term u with
        debounce := (s.term u).debounce.set pos { down := !d.down, count := 0 } }) pos := by
  rw [debouncePosition, debounce_getD hd, if_pos (by simp [ha, hp, hc]), State.onTerm_eq,
    flipPosition_eq_set hd]

theorem debouncePosition_of_not_due
    (h : s.active u = false ∨ 44 ≤ pos ∨ ∃ d, (s.term u).debounce[pos]? = some d ∧ d.count < 2) :
    debouncePosition u pos s = s := by
  refine if_neg ?_
  rcases h with h | h | ⟨d, hd, hc⟩
  · simp [h]
  · simp [Nat.not_lt.2 h]
  · rw [debounce_getD hd]
    simp [Nat.not_le.2 hc]

end Debouncing

/-- Settles O24: `debouncePosition` where it is due and where not. -/
theorem debounceChangeProducesKey : Obligations.DebounceChangeProducesKey := by
  intro u pos s hr
  refine ⟨fun d ha hp hd hc => ⟨fun hlock => exec_next_of hr ?_, fun k hdown hlock hk => ?_⟩,
    fun d hd hc => exec_next_of hr (debouncePosition_of_not_due (.inr (.inr ⟨d, hd, hc⟩))),
    fun hp => exec_next_of hr (debouncePosition_of_not_due (.inr (.inl hp))),
    fun ha => exec_next_of hr (debouncePosition_of_not_due (.inl ha))⟩
  · exact (debouncePosition_of_due ha hp hd hc).trans (if_pos (by simpa using hlock))
  · rw [exec_keyCommand (s := s.setTerm u _) hr]
    refine exec_next_of hr ((debouncePosition_of_due ha hp hd hc).trans ?_)
    rw [if_neg (by simp [hdown, hlock]), hdown]
    simp only [offerCode, hk]
    rfl

end Keys

end Sys2Proof.Machine
end

section
/-!
PROOFS. Prints, Quotes, Statuses and Cancels as the frame handler takes them (R27 to R34, R65 to R68, R172,
R173): the table and the cells first, then the terminals, then the composer.
-/
namespace Sys2Proof.Machine

/-! ### A frame that is taken (R192) -/

section Taken
variable {c : MsgClass} {f : Frame} {s : State}

theorem offers_of_canTake (h : s.canTake c f) : s.offers c f = true := (offers_iff c f s).2 h.2

/-- A frame that is listed and passes its checks has its effect while the dispatch is in progress. -/
theorem handled_of_taken {listed : Bool} {effect : Option (State → State)} {g : State → State}
    (h : s.canTake c f) (hl : listed = true) (hg : effect = some g) :
    handled c f listed effect s = g s.dispatched := by
  simp only [handled, offers_of_canTake h, hl, hg, if_true]
  rfl

theorem handled_map_of_taken {α : Type} {listed : Bool} {o : Option α} {effect : α → State → State}
    {a : α} (h : s.canTake c f) (hl : listed = true) (ha : o = some a) :
    handled c f listed (o.map effect) s = effect a s.dispatched :=
  handled_of_taken h hl (by rw [ha]; rfl)

end Taken

/-! ### The hand-over to the composer (R65 to R68) -/

/-- t is s but for the composer and the tallies. -/
def composerOnly (s t : State) : Prop := t = { s with composer := t.composer, tallies := t.tallies }

section Admission
variable {s : State} {mask : Byte} {r : Fin 4}

theorem enqueueItem_of_lt (i : TapeItem) (h : s.composer.printQueue.length < 64) :
    enqueueItem i s = { s with composer := { s.composer with
      printQueue := s.composer.printQueue ++ [i], idleTimer := none } } :=
  if_pos h

theorem enqueueItem_of_le (i : TapeItem) (h : 64 ≤ s.composer.printQueue.length) :
    enqueueItem i s = { s with
      composer := { s.composer with overflow := true }
      tallies := { s.tallies with tapeRefused := saturate s.tallies.tapeRefused } } :=
  if_neg (Nat.not_lt.2 h)

theorem enqueueItem_composerOnly (i : TapeItem) : composerOnly s (enqueueItem i s) := by
  rcases Nat.lt_or_ge s.composer.printQueue.length 64 with h | h
  · rw [enqueueItem_of_lt i h]
    rfl
  · rw [enqueueItem_of_le i h]
    rfl

theorem composerPrint_composerOnly (m : PrintMsg) : composerOnly s (composerPrint m s) := by
  unfold composerPrint
  split_ifs
  · exact enqueueItem_composerOnly _
  · rfl

theorem composerStatus_composerOnly (m : StatusMsg) : composerOnly s (composerStatus m s) := by
  unfold composerStatus
  split_ifs
  · exact enqueueItem_composerOnly _
  · rfl

theorem composerCancel_composerOnly (m : CancelMsg) : composerOnly s (composerCancel m s) := by
  unfold composerCancel
  split_ifs
  · rfl
  · exact enqueueItem_composerOnly _
  · rfl

theorem hears_of_not_head (h : s.isHead = false) : hears mask s = false := by
  simp [hears, h]

/-- R65: a head hears what the mask includes its ribbon in. -/
theorem hears_of_head (hr : s.straps.ribbon = some r) (hs : s.straps.segment = 0) :
    hears mask s = mask.getLsbD r.val := by
  simp [hears, State.isHead, hr, hs, maskIncludes]

theorem hears_of_masked (hr : s.straps.ribbon = some r) (hm : mask.getLsbD r.val = false) :
    hears mask s = false := by
  simp [hears, hr, maskIncludes, hm]

end Admission

/-! ### Prints at the table (R28 to R30) -/

theorem stateAfterPrint_eq (kind : PrintKind) (st : TradingState) : stateAfterPrint kind st =
    if kind = .opening ∧ (st = .delayed ∨ st = .closed) then .opened else st := by
  cases kind <;> cases st <;> rfl

/-- R57, R59: what a print leaves of a linked cell, by the record's state before it and the new tick. -/
theorem afterPrint_eq (kind : PrintKind) (old : TradingState) (tick : Tick) (c : CellRecord) :
    c.afterPrint old (stateAfterPrint kind old) tick =
      if old = .halted ∨ (old = .delayed ∧ kind ≠ .opening) then c
      else if tick = .plus then c.load .rise
      else if tick = .minus then c.load .fall
      else if old ≠ .opened ∧ kind = .opening then c.stop else c := by
  cases kind <;> cases old <;> cases tick <;> rfl

/-- t is s but for the table and the cells. -/
def boardOnly (s t : State) : Prop := t = { s with table := t.table, cells := t.cells }

theorem tablePrint_boardOnly (m : PrintMsg) (s : State) : boardOnly s (tablePrint m s) := by
  unfold tablePrint
  split
  · rfl
  · split_ifs <;> rfl

theorem tablePrint_of_ignored {m : PrintMsg} {s : State}
    (h : m.kind = .late ∨ findRecord m.symbol s.table = none) : tablePrint m s = s := by
  unfold tablePrint
  split
  · rfl
  · rename_i r hr
    exact if_pos (h.resolve_right (by simp [hr]))

theorem tablePrint_of_held {m : PrintMsg} {s : State} {r : QuoteRecord} (hk : m.kind ≠ .late)
    (hr : findRecord m.symbol s.table = some r) : tablePrint m s =
      (s.onRecord m.symbol (QuoteRecord.afterPrint m)).onCells r.pins
        (CellRecord.afterPrint r.state (stateAfterPrint m.kind r.state) (newTick m.price r.last)) := by
  simp only [tablePrint, hr, if_neg hk]

/-! ### Firing (R172, R173) -/

/-- R172: a terminal after the test of its watch entry against a print's price. -/
def Terminal.tested (y : Symbol) (p : Nat) (active : Bool) (m : Terminal) : Terminal :=
  match m.armedLimit y with
  | none => m
  | some l => if active && l.crossedBy p then m.fire y p l.direction else m

/-- t is s but for the terminals and the tally of dropped alerts. -/
def firesOnly (s t : State) : Prop :=
  t = { s with
    terminals := t.terminals
    tallies := { s.tallies with keysAlertsDropped := t.tallies.keysAlertsDropped } }

theorem firesOnly.refl (s : State) : firesOnly s s := rfl

theorem firesOnly.trans {s t u : State} (h : firesOnly s t) (k : firesOnly t u) : firesOnly s u := by
  unfold firesOnly at *
  rw [h] at k
  exact k

section Firing
variable (y : Symbol) (p : Nat) (t : Fin 4) (s : State)

theorem fireAt_firesOnly : firesOnly s (fireAt y p t s) := by
  rcases fireAt_cases s y p t with h | ⟨l, -, -, -, h⟩ <;> rw [h]
  · exact .refl s
  · split_ifs <;> rfl

theorem fireAt_term_self : (fireAt y p t s).term t = (s.term t).tested y p (s.active t) := by
  cases hl : (s.term t).armedLimit y with
  | none => simp only [fireAt, Terminal.tested, hl]
  | some l =>
    simp only [fireAt, Terminal.tested, hl]
    split_ifs
    · exact State.term_onTerm_self _ _ _
    · exact State.term_onTerm_self _ _ _
    · rfl

theorem fireAt_term_of_ne {u : Fin 4} (h : u ≠ t) : (fireAt y p t s).term u = s.term u := by
  rcases fireAt_cases s y p t with e | ⟨l, -, -, -, e⟩ <;> rw [e]
  rw [State.term_onTerm_of_ne _ _ h]
  split_ifs <;> rfl

theorem fireAt_tallies_of_room (h : (s.term t).alerts.length < 4) :
    (fireAt y p t s).tallies = s.tallies := by
  rcases fireAt_cases s y p t with e | ⟨l, -, -, -, e⟩ <;> rw [e]
  rw [if_neg (Nat.not_le.2 h)]
  rfl

theorem fireAll_firesOnly : firesOnly s (fireAll y p s) :=
  (((fireAt_firesOnly y p 0 s).trans (fireAt_firesOnly y p 1 _)).trans
    (fireAt_firesOnly y p 2 _)).trans (fireAt_firesOnly y p 3 _)

theorem fireAt_active (u : Fin 4) : (fireAt y p t s).active u = s.active u :=
  active_of_straps (fireAt_desk s y p t).straps u

/-- R172: every terminal's test is its own. -/
theorem fireAll_term (u : Fin 4) : (fireAll y p s).term u = (s.term u).tested y p (s.active u) := by
  unfold fireAll
  fin_cases u
  · rw [fireAt_term_of_ne _ _ _ _ (by decide), fireAt_term_of_ne _ _ _ _ (by decide),
      fireAt_term_of_ne _ _ _ _ (by decide)]
    exact fireAt_term_self y p 0 s
  · rw [fireAt_term_of_ne _ _ _ _ (by decide), fireAt_term_of_ne _ _ _ _ (by decide)]
    refine (fireAt_term_self y p 1 _).trans ?_
    rw [fireAt_term_of_ne _ _ _ _ (by decide), fireAt_active]
    rfl
  · rw [fireAt_term_of_ne _ _ _ _ (by decide)]
    refine (fireAt_term_self y p 2 _).trans ?_
    rw [fireAt_term_of_ne _ _ _ _ (by decide), fireAt_term_of_ne _ _ _ _ (by decide), fireAt_active,
      fireAt_active]
    rfl
  · refine (fireAt_term_self y p 3 _).trans ?_
    rw [fireAt_term_of_ne _ _ _ _ (by decide), fireAt_term_of_ne _ _ _ _ (by decide),
      fireAt_term_of_ne _ _ _ _ (by decide), fireAt_active, fireAt_active, fireAt_active]
    rfl

theorem fireAll_tallies_of_room (h : ∀ u : Fin 4, (s.term u).alerts.length < 4) :
    (fireAll y p s).tallies = s.tallies := by
  have h1 : ((fireAt y p 0 s).term 1).alerts.length < 4 := by
    rw [fireAt_term_of_ne _ _ _ _ (by decide)]
    exact h 1
  have h2 : ((fireAt y p 1 (fireAt y p 0 s)).term 2).alerts.length < 4 := by
    rw [fireAt_term_of_ne _ _ _ _ (by decide), fireAt_term_of_ne _ _ _ _ (by decide)]
    exact h 2
  have h3 : ((fireAt y p 2 (fireAt y p 1 (fireAt y p 0 s))).term 3).alerts.length < 4 := by
    rw [fireAt_term_of_ne _ _ _ _ (by decide), fireAt_term_of_ne _ _ _ _ (by decide),
      fireAt_term_of_ne _ _ _ _ (by decide)]
    exact h 3
  rw [fireAll, fireAt_tallies_of_room _ _ _ _ h3, fireAt_tallies_of_room _ _ _ _ h2,
    fireAt_tallies_of_room _ _ _ _ h1, fireAt_tallies_of_room _ _ _ _ (h 0)]

end Firing

theorem firePrint_firesOnly (m : PrintMsg) (s : State) : firesOnly s (firePrint m s) := by
  unfold firePrint
  split
  · exact .refl s
  · split_ifs
    · exact .refl s
    · exact fireAll_firesOnly _ _ s

theorem firePrint_of_ignored {m : PrintMsg} {s : State}
    (h : m.kind = .late ∨ findRecord m.symbol s.table = none) : firePrint m s = s := by
  unfold firePrint
  split
  · rfl
  · rename_i r hr
    exact if_pos (h.resolve_right (by simp [hr]))

theorem firePrint_of_held {m : PrintMsg} {s : State} (hk : m.kind ≠ .late)
    (hr : (findRecord m.symbol s.table).isSome) : firePrint m s = fireAll m.symbol m.price s := by
  obtain ⟨r, hr⟩ := Option.isSome_iff_exists.1 hr
  simp only [firePrint, hr, if_neg hk]

theorem crossedBy_iff (p : Nat) (l : Limit) : l.crossedBy p = true ↔
    (l.direction = .above ∧ l.price ≤ p ∨ l.direction = .below ∧ p ≤ l.price) := by
  unfold Limit.crossedBy
  split <;> rename_i h <;> simp [h]

/-! ### A Print as a whole -/

section Print
variable {f : Frame} {m : PrintMsg} {s : State}

theorem exec_print (h : s.canTake .print f) (hd : f.dest = 0) (hm : readPrint f = some m) :
    exec (.print f) s = .next (applyPrint m s.dispatched) :=
  exec_next_of h.1 (handled_map_of_taken h (by simp [hd]) hm)

theorem readPrint_origin (hm : readPrint f = some m) : m.id = ⟨f.origin, m.id.serial⟩ := by
  unfold readPrint at hm
  split at hm
  · split_ifs at hm
    rw [← Option.some.inj hm]
  · cases hm

/-- A Print's effect on the table, the cells and the terminals, before the composer. -/
theorem applyPrint_composerOnly (m : PrintMsg) (s : State) :
    composerOnly (firePrint m (tablePrint m s)) (applyPrint m s) :=
  composerPrint_composerOnly m

/-- The board, then the terminals, then the composer. -/
theorem eq_of_only {s u v t : State} (hboard : boardOnly s u) (hfires : firesOnly u v)
    (honly : composerOnly v t) : t = { s with
      table := u.table
      cells := u.cells
      terminals := v.terminals
      composer := t.composer
      tallies := t.tallies } := by
  obtain ⟨table, cells, rfl⟩ : ∃ table cells, u = { s with table := table, cells := cells } :=
    ⟨_, _, hboard⟩
  obtain ⟨terminals, tallies, rfl⟩ : ∃ terminals tallies, v =
      { s with table := table, cells := cells, terminals := terminals, tallies := tallies } :=
    ⟨_, _, hfires⟩
  exact honly

/-- What a Print reaches. -/
theorem applyPrint_eq (m : PrintMsg) (s : State) : applyPrint m s = { s with
    table := (tablePrint m s).table
    cells := (tablePrint m s).cells
    terminals := (firePrint m (tablePrint m s)).terminals
    composer := (applyPrint m s).composer
    tallies := (applyPrint m s).tallies } :=
  eq_of_only (tablePrint_boardOnly m s) (firePrint_firesOnly m _) (applyPrint_composerOnly m s)

theorem applyPrint_table (m : PrintMsg) (s : State) : (applyPrint m s).table = (tablePrint m s).table := by
  rw [applyPrint_eq]

theorem applyPrint_cells (m : PrintMsg) (s : State) : (applyPrint m s).cells = (tablePrint m s).cells := by
  rw [applyPrint_eq]

theorem applyPrint_terminals (m : PrintMsg) (s : State) :
    (applyPrint m s).terminals = (firePrint m (tablePrint m s)).terminals := by
  rw [applyPrint_eq]

end Print

end Sys2Proof.Machine
end

section
/-!
PROOFS. The statements about Prints, Quotes, Statuses and Cancels, each from the parts of its effect.
-/
namespace Sys2Proof.Machine

/-! ### Prints -/

section Print
variable {f : Frame} {m : PrintMsg} {s : State}

theorem tablePrint_cells_of_held {r : QuoteRecord} (hk : m.kind ≠ .late)
    (hr : findRecord m.symbol s.table = some r) : (tablePrint m s).cells = s.cells.map fun c =>
      if r.pins.contains c.number then
        c.afterPrint r.state (stateAfterPrint m.kind r.state) (newTick m.price r.last) else c := by
  rw [tablePrint_of_held hk hr]
  rfl

theorem kind_ne_opening_iff (hk : m.kind ≠ .late) : m.kind ≠ .opening ↔ m.kind = .regular := by
  cases hkind : m.kind <;> simp_all

/-- Settles O35: the record by `afterPrint`, the cells by `afterPrint_eq`. -/
theorem printUpdatesRecord : Obligations.PrintUpdatesRecord := by
  intro f m s h hd hm
  refine ⟨_, exec_print h hd hm, fun hi => ?_, fun r hk hr => ?_, ?_⟩
  · rw [applyPrint_table, applyPrint_cells, applyPrint_terminals,
      tablePrint_of_ignored (s := s.dispatched) hi, firePrint_of_ignored (s := s.dispatched) hi]
    exact ⟨rfl, rfl, rfl⟩
  · have hsym : ∀ q : QuoteRecord, (q.afterPrint m).symbol = q.symbol := fun _ => rfl
    have htable : (tablePrint m s.dispatched).table =
        updateRecord m.symbol (QuoteRecord.afterPrint m) s.table := by
      rw [tablePrint_of_held (s := s.dispatched) hk hr]
      rfl
    have hcells := tablePrint_cells_of_held (s := s.dispatched) hk hr
    simp only [afterPrint_eq, ne_eq, kind_ne_opening_iff hk] at hcells
    rw [applyPrint_table, applyPrint_cells, htable]
    refine ⟨?_, fun z hz => findRecord_updateRecord_of_ne _ hsym hz, updateRecord_symbols _ hsym,
      fun hstop => hcells.trans ?_, fun hgo => ⟨fun ht => hcells.trans ?_, fun ht => hcells.trans ?_,
        fun hup hdown => hcells.trans ?_⟩⟩
    · rw [findRecord_updateRecord_self _ hsym, hr, Option.map_some, QuoteRecord.afterPrint,
        stateAfterPrint_eq, ← readPrint_origin hm]
    · simp only [if_pos hstop, ite_self]
      exact List.map_id _
    · simp only [if_neg hgo, if_pos ht]
      rfl
    · simp only [if_neg hgo, ht]
      rfl
    · refine List.map_congr_left fun c _ => ?_
      rw [if_neg hgo, if_neg hup, if_neg hdown]
      exact (ite_and _ _ _ _).symm
  · rw [applyPrint_eq]
    exact ⟨h.1, rfl, rfl, rfl, rfl, rfl, rfl, rfl, rfl⟩

/-- The composer hears a Print as it hears the mark of the Print's mask. -/
theorem applyPrint_of_not_heard (h : hears m.mask s = false) :
    applyPrint m s = firePrint m (tablePrint m s) := by
  refine if_neg ?_
  rw [firePrint_firesOnly m (tablePrint m s), tablePrint_boardOnly m s]
  exact Bool.eq_false_iff.1 h

theorem applyPrint_of_heard (h : hears m.mask s = true) : applyPrint m s =
    enqueueItem (.print m.symbol m.price m.lots m.kind m.id s.tickCount)
      (firePrint m (tablePrint m s)) := by
  have htick : (firePrint m (tablePrint m s)).tickCount = s.tickCount := by
    rw [firePrint_firesOnly m (tablePrint m s), tablePrint_boardOnly m s]
  rw [← htick]
  refine if_pos ?_
  rw [firePrint_firesOnly m (tablePrint m s), tablePrint_boardOnly m s]
  exact h

/-- Up to the composer a Print leaves the composer and the tally of refused items. -/
theorem firePrint_composer (m : PrintMsg) (s : State) :
    (firePrint m (tablePrint m s)).composer = s.composer ∧
      (firePrint m (tablePrint m s)).tallies.tapeRefused = s.tallies.tapeRefused := by
  rw [firePrint_firesOnly m (tablePrint m s), tablePrint_boardOnly m s]
  exact ⟨rfl, rfl⟩

/-- Settles O36: heard or not, with room or not. -/
theorem printAdmittedToTape : Obligations.PrintAdmittedToTape := by
  intro f m s h hd hm
  obtain ⟨hcomposer, hrefused⟩ := firePrint_composer m s.dispatched
  have hdeaf : hears m.mask s.dispatched = false →
      (applyPrint m s.dispatched).composer = s.composer ∧
        (applyPrint m s.dispatched).tallies.tapeRefused = s.tallies.tapeRefused := fun hh => by
    rw [applyPrint_of_not_heard hh]
    exact ⟨hcomposer, hrefused⟩
  refine ⟨_, exec_print h hd hm, fun hh => hdeaf (hears_of_not_head hh), fun r hr hseg => ?_, ?_⟩
  · have hears_eq : hears m.mask s.dispatched = m.mask.getLsbD r.val := hears_of_head hr hseg
    refine ⟨fun hmask => hdeaf (hears_eq.trans hmask), fun hmask hlen => ?_, fun hmask hlen => ?_⟩
    · rw [applyPrint_of_heard (hears_eq.trans hmask), enqueueItem_of_lt _ (by rw [hcomposer]; exact hlen),
        ← readPrint_origin hm]
      exact ⟨by rw [hcomposer]; rfl, hrefused⟩
    · rw [applyPrint_of_heard (hears_eq.trans hmask), enqueueItem_of_le _ (by rw [hcomposer]; exact hlen)]
      exact ⟨by rw [hcomposer]; rfl, congrArg saturate hrefused⟩
  · rw [applyPrint_eq]
    exact ⟨rfl, rfl, rfl⟩

theorem tablePrint_term (m : PrintMsg) (s : State) (u : Fin 4) : (tablePrint m s).term u = s.term u := by
  rw [tablePrint_boardOnly m s]
  rfl

theorem tablePrint_active (m : PrintMsg) (s : State) (u : Fin 4) :
    (tablePrint m s).active u = s.active u := by
  rw [tablePrint_boardOnly m s]
  rfl

/-- Settles O37: each terminal by its own test, before the composer. -/
theorem printFiresLimits : Obligations.PrintFiresLimits := by
  intro f m r s h hd hm hk hr
  have hheld : (findRecord m.symbol (tablePrint m s.dispatched).table).isSome := by
    rw [tablePrint_of_held (s := s.dispatched) hk hr]
    refine Eq.trans (congrArg Option.isSome (findRecord_updateRecord_self
      (f := QuoteRecord.afterPrint m) s.table fun _ => rfl)) ?_
    rw [hr]
    rfl
  have hfire := firePrint_of_held hk hheld
  have hterm : ∀ u : Fin 4, (applyPrint m s.dispatched).term u =
      (s.term u).tested m.symbol m.price (s.active u) := fun u => by
    refine (congrArg (Quad.get · u) (applyPrint_terminals m s.dispatched)).trans ?_
    rw [hfire]
    refine (fireAll_term m.symbol m.price (tablePrint m s.dispatched) u).trans ?_
    rw [tablePrint_term, tablePrint_active]
    rfl
  refine ⟨_, exec_print h hd hm, fun u l ha hl hc => ?_, fun u hn => ?_, fun hroom => ?_⟩
  · rw [hterm, Terminal.tested]
    simp only [hl, ha, (crossedBy_iff m.price l).2 hc, Bool.and_self, if_true]
    rfl
  · rw [hterm, Terminal.tested]
    split
    · rfl
    · rename_i l hl
      refine if_neg fun hfires => ?_
      rw [Bool.and_eq_true] at hfires
      rcases hn with hn | hn | ⟨l', hl', hn⟩
      · simp [hn] at hfires
      · simp [hn] at hl
      · rw [hl] at hl'
        cases hl'
        exact hn ((crossedBy_iff _ _).1 hfires.2)
  · have htallies : (firePrint m (tablePrint m s.dispatched)).tallies = s.tallies := by
      rw [hfire, fireAll_tallies_of_room _ _ _ fun u => by rw [tablePrint_term]; exact hroom u,
        tablePrint_boardOnly m s.dispatched]
      rfl
    cases hh : hears m.mask s.dispatched
    · rw [applyPrint_of_not_heard hh, htallies]
    · rw [applyPrint_of_heard hh]
      rcases enqueueItem_cases (.print m.symbol m.price m.lots m.kind m.id s.dispatched.tickCount)
        (firePrint m (tablePrint m s.dispatched)) with ⟨-, e⟩ | ⟨-, e⟩ <;> rw [e]
      · exact congrArg Tallies.keysAlertsDropped htallies
      · exact (Tallies.get_bump_of_ne _ (k := .tapeRefused) (j := .keysAlertsDropped) nofun).trans
          (congrArg Tallies.keysAlertsDropped htallies)

end Print

end Sys2Proof.Machine
end

section
/-!
PROOFS. Quotes, Statuses and Cancels (R31 to R34, R67, R68): the record, the linked cells and the composer.
-/
namespace Sys2Proof.Machine

/-! ### A record's state (R32, R58) -/

/-- R58: what a change of a record's state leaves of a linked cell. -/
theorem onState_eq (st : TradingState) (c : CellRecord) : c.onState st =
    { c with
      pattern := if st = .halted then .halt else if st = .delayed then .delay else .steady
      position := 0
      repeats := decide (st = .halted ∨ st = .delayed) } := by
  cases st <;> rfl

section SetState
variable {y : Symbol} {st : TradingState} {s : State} {r : QuoteRecord}

theorem setRecordState_of_absent (h : findRecord y s.table = none) : setRecordState y st s = s := by
  simp only [setRecordState, h]

theorem setRecordState_of_same (hr : findRecord y s.table = some r) (h : r.state = st) :
    setRecordState y st s = s := by
  simp only [setRecordState, hr, if_pos h]

theorem setRecordState_of_change (hr : findRecord y s.table = some r) (h : r.state ≠ st) :
    setRecordState y st s =
      (s.onRecord y (fun q => { q with state := st })).onCells r.pins (CellRecord.onState st) := by
  simp only [setRecordState, hr, if_neg h]

theorem setRecordState_boardOnly (y : Symbol) (st : TradingState) (s : State) :
    boardOnly s (setRecordState y st s) := by
  unfold setRecordState
  split
  · rfl
  · split_ifs <;> rfl

end SetState

/-! ### Admission after the board -/

/-- The board, then the composer. -/
theorem eq_of_board_composer {s u t : State} (hboard : boardOnly s u) (honly : composerOnly u t) :
    t = { s with table := u.table, cells := u.cells, composer := t.composer, tallies := t.tallies } :=
  eq_of_only hboard (firesOnly.refl u) honly |>.trans (by rw [hboard])

section Status
variable {f : Frame} {m : StatusMsg} {s : State}

theorem exec_status (h : s.canTake .status f) (hd : f.dest = 0) (hm : readStatus f = some m) :
    exec (.status f) s = .next (applyStatus m s.dispatched) :=
  exec_next_of h.1 (handled_map_of_taken h (by simp [hd]) hm)

/-- What a Status reaches. -/
theorem applyStatus_eq (m : StatusMsg) (s : State) : applyStatus m s = { s with
    table := (setRecordState m.symbol m.state s).table
    cells := (setRecordState m.symbol m.state s).cells
    composer := (applyStatus m s).composer
    tallies := (applyStatus m s).tallies } :=
  eq_of_board_composer (setRecordState_boardOnly _ _ s) (composerStatus_composerOnly m)

theorem applyStatus_table (m : StatusMsg) (s : State) :
    (applyStatus m s).table = (setRecordState m.symbol m.state s).table := by
  rw [applyStatus_eq]

theorem applyStatus_cells (m : StatusMsg) (s : State) :
    (applyStatus m s).cells = (setRecordState m.symbol m.state s).cells := by
  rw [applyStatus_eq]

theorem hears_setRecordState (mask : Byte) (y : Symbol) (st : TradingState) (s : State) :
    hears mask (setRecordState y st s) = hears mask s := by
  rw [setRecordState_boardOnly y st s]
  rfl

theorem setRecordState_composer (y : Symbol) (st : TradingState) (s : State) :
    (setRecordState y st s).composer = s.composer ∧ (setRecordState y st s).tallies = s.tallies := by
  rw [setRecordState_boardOnly y st s]
  exact ⟨rfl, rfl⟩

theorem applyStatus_of_not_heard
    (h : hears m.mask s = false ∨ m.state = .opened ∨ m.state = .closed) :
    applyStatus m s = setRecordState m.symbol m.state s := by
  refine if_neg ?_
  rw [hears_setRecordState]
  rcases h with h | h | h <;> simp [h]

theorem applyStatus_of_heard (h : hears m.mask s = true) (hst : m.state = .halted ∨ m.state = .delayed) :
    applyStatus m s =
      enqueueItem (.status m.symbol m.state) (setRecordState m.symbol m.state s) := by
  refine if_pos ?_
  rw [hears_setRecordState, h]
  rcases hst with h | h <;> simp [h]

end Status

theorem exec_quote {f : Frame} {m : QuoteMsg} {s : State} (h : s.canTake .quote f) (hd : f.dest = 0)
    (hm : readQuote f = some m) : exec (.quote f) s = .next (tableQuote m s.dispatched) :=
  exec_next_of h.1 (handled_map_of_taken h (by simp [hd]) hm)

/-- Settles O38: a Quote by `tableQuote`, a Status by `setRecordState` and the admission. -/
theorem quoteAndStatus : Obligations.QuoteAndStatus := by
  intro f s hd
  refine ⟨fun m h hm => exec_quote h hd hm, fun m h hm => ?_⟩
  obtain ⟨hcomposer, htallies⟩ := setRecordState_composer m.symbol m.state s.dispatched
  have hdeaf : hears m.mask s.dispatched = false ∨ m.state = .opened ∨ m.state = .closed →
      (applyStatus m s.dispatched).composer = s.composer ∧
        (applyStatus m s.dispatched).tallies = s.tallies := fun hh => by
    rw [applyStatus_of_not_heard hh]
    exact ⟨hcomposer, htallies⟩
  refine ⟨_, exec_status h hd hm, ?_, fun hr => ?_, fun r hr => ⟨fun hst => ?_, fun hst => ?_⟩,
    fun hh => hdeaf (hh.imp_left hears_of_not_head), fun r hr hmask => hdeaf (.inl (hears_of_masked hr hmask)),
    fun r hr hseg hmask hst => ?_, ?_⟩
  · rw [applyStatus_table]
    cases hr : findRecord m.symbol s.table with
    | none =>
      rw [setRecordState_of_absent (s := s.dispatched) hr]
      simp [State.dispatched]
    | some r =>
      by_cases hst : r.state = m.state
      · rw [setRecordState_of_same (s := s.dispatched) hr hst]
        simp [hst, State.dispatched]
      · rw [setRecordState_of_change (s := s.dispatched) hr hst]
        simp [hst, updateRecord, State.dispatched]
  · rw [applyStatus_cells, setRecordState_of_absent (s := s.dispatched) hr]
    rfl
  · rw [applyStatus_cells, setRecordState_of_same (s := s.dispatched) hr hst]
    rfl
  · rw [applyStatus_cells, setRecordState_of_change (s := s.dispatched) hr hst]
    refine List.map_congr_left fun c _ => ?_
    rw [onState_eq]
  · rw [applyStatus_of_heard (s := s.dispatched) ((hears_of_head hr hseg).trans hmask) hst]
    refine ⟨fun hlen => ?_, fun hlen => ?_⟩
    · rw [enqueueItem_of_lt _ (by rw [hcomposer]; exact hlen)]
      exact ⟨by rw [hcomposer]; rfl, htallies⟩
    · rw [enqueueItem_of_le _ (by rw [hcomposer]; exact hlen)]
      exact ⟨by rw [hcomposer]; rfl, by rw [htallies]; rfl⟩
  · rw [applyStatus_eq]
    exact ⟨h.1, rfl, rfl, rfl, rfl, rfl, rfl, rfl, rfl, rfl⟩

/-! ### Cancels (R33, R34, R68) -/

theorem afterCancel_eq (id : PrintId) (r : QuoteRecord) : r.afterCancel id =
    if r.setter = some id then
      (if r.prior.isSome then { r with last := r.prior, prior := none, setter := none }
       else { r with suspect := true })
    else r := by
  unfold QuoteRecord.afterCancel
  split_ifs with hid hp
  · obtain ⟨p, hp⟩ := Option.isSome_iff_exists.1 hp
    simp only [hp]
  · simp only [Option.not_isSome_iff_eq_none.1 hp]
  · rfl

theorem exec_cancel {f : Frame} {m : CancelMsg} {s : State} (h : s.canTake .cancel f) (hd : f.dest = 0)
    (hm : readCancel f = some m) : exec (.cancel f) s = .next (applyCancel m s.dispatched) :=
  exec_next_of h.1 (handled_map_of_taken h (by simp [hd]) hm)

/-- What a Cancel reaches. -/
theorem applyCancel_eq (m : CancelMsg) (s : State) : applyCancel m s = { s with
    table := (tableCancel m s).table
    composer := (applyCancel m s).composer
    tallies := (applyCancel m s).tallies } :=
  eq_of_board_composer (s := s) (u := tableCancel m s) rfl (composerCancel_composerOnly m)

section Cancel
variable {m : CancelMsg} {s : State}

theorem applyCancel_of_not_heard (h : hears m.mask s = false) : applyCancel m s = tableCancel m s :=
  if_neg (Bool.eq_false_iff.1 h)

theorem applyCancel_of_held {before after : List TapeItem} {i : TapeItem} (h : hears m.mask s = true)
    (hq : s.composer.printQueue = before ++ i :: after) (hb : ∀ j ∈ before, j.isPrint m.id = false)
    (hi : i.isPrint m.id = true) : applyCancel m s =
      (tableCancel m s).onComposer (fun c => c.withQueue (before ++ after)) := by
  have herase : s.composer.printQueue.eraseP (TapeItem.isPrint m.id) = before ++ after := by
    rw [hq, List.eraseP_append_right _ fun j hj => by simp [hb j hj], List.eraseP_cons_of_pos hi]
  refine (if_pos h).trans ((if_pos ?_).trans ?_)
  · show s.composer.printQueue.any (TapeItem.isPrint m.id) = true
    simp [hq, hi]
  · rw [← herase]
    rfl

theorem applyCancel_of_not_held (h : hears m.mask s = true)
    (hq : ∀ j ∈ s.composer.printQueue, j.isPrint m.id = false) : applyCancel m s =
      enqueueItem (.cancel m.symbol m.price m.lots) (tableCancel m s) := by
  refine (if_pos h).trans (if_neg ?_)
  show ¬s.composer.printQueue.any (TapeItem.isPrint m.id) = true
  simpa using hq

end Cancel

/-- Settles O39: the record by `afterCancel`, the queue by whether it holds the print named. -/
theorem cancelUndoesPrint : Obligations.CancelUndoesPrint := by
  intro f m s h hd hm
  have hdeaf : hears m.mask s.dispatched = false →
      (applyCancel m s.dispatched).composer = s.composer ∧
        (applyCancel m s.dispatched).tallies = s.tallies := fun hh => by
    rw [applyCancel_of_not_heard hh]
    exact ⟨rfl, rfl⟩
  refine ⟨_, exec_cancel h hd hm, ?_, fun hh => hdeaf (hears_of_not_head hh), fun r hr hseg => ?_, ?_⟩
  · rw [applyCancel_eq]
    refine List.map_congr_left fun r _ => ?_
    rw [afterCancel_eq]
    exact (ite_and _ _ _ _).symm
  · have hears_eq : hears m.mask s.dispatched = m.mask.getLsbD r.val := hears_of_head hr hseg
    refine ⟨fun hmask => hdeaf (hears_eq.trans hmask), fun before after i hmask hq hb hi => ?_,
      fun hmask hq => ?_⟩
    · rw [applyCancel_of_held (s := s.dispatched) (hears_eq.trans hmask) hq hb hi]
      exact ⟨rfl, rfl⟩
    · rw [applyCancel_of_not_held (s := s.dispatched) (hears_eq.trans hmask) hq]
      refine ⟨fun hlen => ?_, fun hlen => ?_⟩
      · rw [enqueueItem_of_lt (s := tableCancel m s.dispatched) _ hlen]
        exact ⟨rfl, rfl⟩
      · rw [enqueueItem_of_le (s := tableCancel m s.dispatched) _ hlen]
        exact ⟨rfl, rfl⟩
  · rw [applyCancel_eq]
    exact ⟨h.1, rfl, rfl, rfl, rfl, rfl, rfl, rfl, rfl, rfl, rfl⟩

end Sys2Proof.Machine
end

section
/-!
PROOFS. Plans (R36 to R38, R60), evictions (R22), Asks (R163, R164), snooped Answers (R166, R189) and Tally
Queries (R203, R204).
-/
namespace Sys2Proof.Machine

/-! ### Evictions (R22, R25) -/

theorem pinned_eq_false (r : QuoteRecord) : r.pinned = false ↔ r.pins = [] ∧ r.refs = 0 := by
  simp [QuoteRecord.pinned]

theorem pinned_iff (r : QuoteRecord) : r.pinned = true ↔ r.pins ≠ [] ∨ 0 < r.refs := by
  simp [QuoteRecord.pinned]

/-- R22: the least recent unpinned record leaves, and no other. -/
theorem evict_of_split {before after : List QuoteRecord} {r : QuoteRecord} (hr : r.pinned = false)
    (ha : ∀ q ∈ after, q.pinned = true) : evict (before ++ r :: after) = before ++ after := by
  unfold evict
  rw [List.reverse_append, List.reverse_cons, List.append_assoc, List.singleton_append,
    List.eraseP_append_right _ fun q hq => by simp [ha q (List.mem_reverse.1 hq)],
    List.eraseP_cons_of_pos (by simp [hr]), List.reverse_append, List.reverse_reverse,
    List.reverse_reverse]

theorem evict_sublist (table : List QuoteRecord) : (evict table).Sublist table := by
  have h := (List.eraseP_sublist (p := fun r => !r.pinned) (l := table.reverse)).reverse
  rwa [List.reverse_reverse] at h

/-! ### Plans (R36 to R38) -/

theorem updateRecord_of_absent {y : Symbol} {f : QuoteRecord → QuoteRecord} {table : List QuoteRecord}
    (h : ∀ r ∈ table, r.symbol ≠ y) : updateRecord y f table = table := by
  refine (List.map_congr_left fun r hr => ?_).trans (List.map_id _)
  exact if_neg (h r hr)

theorem withReference_eq (ref : Option Nat) (r : QuoteRecord) : r.withReference ref =
    { r with reference := if ref.isSome then ref else r.reference } := by
  cases ref <;> rfl

theorem cellNumbers_filter (c : Fin 16) :
    cellNumbers.filter (fun k => k == c || ([] : List (Fin 16)).contains k) = [c] := by
  revert c
  decide

section Plan
variable {m : PlanMsg} {old : Option Symbol} {table : List QuoteRecord} {y z : Symbol}

theorem planTable_of_clear (hm : m.symbol = none) : planTable m none table = table := by
  simp only [planTable, hm, if_true]

theorem planTable_of_unlink (hm : m.symbol = none) :
    planTable m (some z) table = updateRecord z (QuoteRecord.dropPin m.cell) table := by
  simp only [planTable, hm, reduceCtorEq, if_false, unlinkTable]

theorem planTable_of_refresh (hm : m.symbol = some y) : planTable m (some y) table =
    updateRecord y (QuoteRecord.withReference m.reference) table := by
  simp only [planTable, hm, if_true]

theorem planTable_of_relink (hm : m.symbol = some y) (hne : old ≠ some y) : planTable m old table =
    updateRecord y (fun r => (r.addPin m.cell).withReference m.reference)
      (ensureHeld y (unlinkTable m.cell old table)) := by
  simp only [planTable, hm, if_neg (Ne.symm hne)]

theorem ensureHeld_of_held {r : QuoteRecord} (h : findRecord y table = some r) :
    ensureHeld y table = table := by
  simp only [ensureHeld, h]

theorem ensureHeld_of_absent (h : findRecord y table = none) : ensureHeld y table = install y table := by
  simp only [ensureHeld, h]

/-- R21: what the update of an installed record leaves. -/
theorem updateRecord_install {f : QuoteRecord → QuoteRecord} (h : findRecord y table = none) :
    updateRecord y f (install y table) =
      f (QuoteRecord.fresh y) :: (if table.length < 64 then table else evict table) := by
  have habsent := findRecord_none.1 h
  have hrest : ∀ r ∈ (if table.length < Config.tableSize then table else evict table),
      r.symbol ≠ y := by
    split_ifs
    · exact habsent
    · exact fun r hr => habsent r ((evict_sublist table).subset hr)
  rw [install, updateRecord, List.map_cons, if_pos (show (QuoteRecord.fresh y).symbol = y from rfl)]
  exact congrArg (f (QuoteRecord.fresh y) :: ·) (updateRecord_of_absent hrest)

/-- R60: the cell that a Plan names. -/
theorem onPlan_eq (link : Option Symbol) (st : Option TradingState) (c : CellRecord) :
    c.onPlan link st =
      { number := c.number
        link := link
        pattern := if st = some .halted then .halt else if st = some .delayed then .delay else .steady
        position := 0
        repeats := decide (st = some .halted ∨ st = some .delayed) } := by
  unfold CellRecord.onPlan
  split <;> rfl

end Plan

/-- Settles O40: the Plan's forms by `planTable`, the cell by `onPlan_eq`. -/
theorem planLinksCell : Obligations.PlanLinksCell := by
  refine ⟨fun before after r hp hr ha => evict_of_split ((pinned_eq_false r).2 ⟨hp, hr⟩)
    fun q hq => (pinned_iff q).2 (ha q hq), fun f m s h hown hm => ?_⟩
  refine ⟨tablePlan m s.dispatched, exec_next_of h.1 (handled_map_of_taken h hown hm),
    fun hnone hlink => ?_, fun old hnone hlink => ?_, fun y hsome hlink => ?_,
    fun y unlinked hsome hun => ?_, ?_, h.1, rfl, rfl, rfl, rfl, rfl, rfl, rfl, rfl, rfl, rfl, rfl⟩
  all_goals
    have htable : (tablePlan m s.dispatched).table = planTable m (s.linkOf m.cell) s.table := rfl
  · rw [htable, hlink, planTable_of_clear hnone]
  · rw [htable, hlink, planTable_of_unlink hnone]
    rfl
  · rw [htable, hlink, planTable_of_refresh hsome]
    refine List.map_congr_left fun r _ => ?_
    rw [withReference_eq]
    by_cases hp : m.reference.isSome
    · simp only [hp, and_true, if_true]
    · simp only [hp, and_false, if_false, Bool.false_eq_true, ite_self]
  · have hrelink : (tablePlan m s.dispatched).table =
        updateRecord y (fun r => (r.addPin m.cell).withReference m.reference) (ensureHeld y unlinked) := by
      rcases hun with ⟨hlink, rfl⟩ | ⟨old, hlink, hne, rfl⟩
      · rw [htable, planTable_of_relink hsome (by simp [hlink]), hlink]
        rfl
      · rw [htable, planTable_of_relink hsome (by simpa [hlink] using hne.symm), hlink]
        rfl
    rw [hrelink]
    refine ⟨fun r hr => ?_, fun hr => ?_⟩
    · rw [ensureHeld_of_held hr]
      refine List.map_congr_left fun q _ => ?_
      simp only [withReference_eq]
      rfl
    · rw [ensureHeld_of_absent hr, updateRecord_install hr, withReference_eq]
      refine congrArg (· :: _) ?_
      simp only [QuoteRecord.addPin, QuoteRecord.fresh, cellNumbers_filter]
      cases m.reference <;> rfl
  · refine (congrArg State.cells (onCells_singleton _ m.cell _)).trans ?_
    refine List.map_congr_left fun c _ => ?_
    rw [onPlan_eq]
    rfl

/-! ### Asks (R163, R164) -/

theorem answers_iff (y : Symbol) (s : State) : answers y s = true ↔
    s.listenOnly = false ∧ ∃ r, findRecord y s.table = some r ∧ r.pins ≠ [] := by
  unfold answers
  cases findRecord y s.table <;> simp

/-- Settles O42: the tests of `takeAsk` in order. -/
theorem askQueuesAnswer : Obligations.AskQueuesAnswer := by
  intro f m s h hd horigin hm
  have hexec : exec (.ask f) s = .next (takeAsk f.origin m s.dispatched) :=
    exec_next_of h.1 (handled_map_of_taken h (by simp [takesAsk, hd, horigin]) hm)
  have htake : takeAsk f.origin m s.dispatched = if answers m.symbol s then
      if s.line.generalQueue.any (TxFrame.isAnswerTo f.origin m.terminal m.tag) then s.dispatched
      else if s.generalFull then s.dispatched.count .framesAbandoned
      else s.dispatched.appendGeneral f.origin (.answer m.terminal m.tag m.symbol)
    else s.dispatched := rfl
  rw [htake] at hexec
  refine ⟨answers_iff _ s, fun ha => hexec.trans (congrArg _ ?_), fun ha hq => hexec.trans (congrArg _ ?_),
    fun ha hq => ⟨fun hlen => hexec.trans (congrArg _ ?_), fun hlen => hexec.trans (congrArg _ ?_)⟩⟩
  · rw [if_neg (Bool.eq_false_iff.1 ha)]
  · rw [if_pos ha, if_pos hq]
  · rw [if_pos ha, if_neg (Bool.eq_false_iff.1 hq), if_neg (Bool.eq_false_iff.1 (generalFull_of_lt hlen))]
    rfl
  · rw [if_pos ha, if_neg (Bool.eq_false_iff.1 hq), if_pos (generalFull_of_le hlen)]
    rfl

/-! ### Snooped Answers (R166, R189) -/

/-- R189: what a withdrawal leaves of the general queue. -/
theorem withdraw_eq (s : State) (p : TxFrame → Bool) {queue : List TxFrame}
    (h : (if s.sendingGeneral then s.line.generalQueue.take 1 else []) ++
      (waitingFrames s.sendingGeneral s.line.generalQueue).filter (fun g => !p g) = queue) :
    s.withdraw p = { s with line := { s.line with generalQueue := queue } } := by
  rw [← h]
  rfl

/-- R189: no frame that matches, no change. -/
theorem withdraw_of_none {s : State} {p : TxFrame → Bool} (h : ∀ g ∈ s.line.generalQueue, p g = false) :
    s.withdraw p = s := by
  refine withdraw_eq s p (queue := s.line.generalQueue) ?_
  cases s.sendingGeneral
  · simpa [waitingFrames] using h
  · cases hq : s.line.generalQueue with
    | nil => rfl
    | cons g gs =>
      rw [hq] at h
      simpa [waitingFrames] using fun f hf => h f (List.mem_cons_of_mem _ hf)

/-- Settles O44: `withdraw` by what is on the line. -/
theorem snoopedAnswerSuppresses : Obligations.SnoopedAnswerSuppresses := by
  intro f m s h hother hm
  have hexec : exec (.answerSnoop f) s =
      .next (s.dispatched.withdraw (TxFrame.isAnswerTo f.dest m.terminal m.tag)) :=
    exec_next_of h.1 ((if_pos hother).trans (handled_map_of_taken h rfl hm))
  refine ⟨fun before after g hs hq hg hrest => hexec.trans (congrArg _ ?_),
    fun g after hs hq => hexec.trans (congrArg _ ?_), fun hnone => hexec.trans (congrArg _ ?_)⟩
  · refine withdraw_eq s.dispatched _ (queue := before ++ after) ?_
    have hoff : s.dispatched.sendingGeneral = false := by simp [State.sendingGeneral, State.dispatched, hs]
    have hkeep : (before ++ after).filter (fun g => !g.isAnswerTo f.dest m.terminal m.tag) =
        before ++ after := List.filter_eq_self.2 fun j hj => by simp [hrest j hj]
    rw [hoff, show s.dispatched.line.generalQueue = _ from hq]
    simp only [waitingFrames, Bool.false_eq_true, if_false, List.nil_append, List.filter_append]
    rw [List.filter_cons_of_neg (by simp [hg]), ← List.filter_append, hkeep]
  · refine withdraw_eq s.dispatched _ ?_
    rw [show s.dispatched.sendingGeneral = true from hs, show s.dispatched.line.generalQueue = _ from hq]
    rfl
  · exact withdraw_of_none hnone

/-! ### Tally Queries (R203, R204) -/

theorem exec_tallyQuery {f : Frame} {b : Byte} {s : State} (h : s.canTake .tallyQuery f)
    (hown : s.isOwnNumber f.dest = true) (hb : f.body = [b]) : exec (.tallyQuery f) s =
      .next (takeTallyQuery f.origin (b.getLsbD 0) s.dispatched) := by
  refine exec_next_of h.1 (handled_map_of_taken h hown ?_)
  simp [readTallyQuery, hb, byteAt]

/-- Settles O45: `takeTallyQuery` by the room in the queue and the flag. -/
theorem tallyQueryReports : Obligations.TallyQueryReports := by
  intro f b s h hown hb
  have hexec := exec_tallyQuery h hown hb
  refine ⟨fun hlen => hexec.trans (congrArg _ ?_),
    fun hlen => ⟨s.statusByte, s.tallies.report, hexec.trans (congrArg _ ?_), rfl, ?_⟩⟩
  · exact if_pos (generalFull_of_le (s := s.dispatched) hlen)
  · rw [takeTallyQuery, if_neg (Bool.eq_false_iff.1 (generalFull_of_lt (s := s.dispatched) hlen))]
    cases b.getLsbD 0 <;> rfl
  · have hlevel : s.reportedLevel = if s.straps.ribbon = none then 0
        else if s.straps.segment = 0 then s.composer.level else s.crawl.paceLevel := by
      simp [State.reportedLevel]
    rw [State.statusByte, BitVec.toNat_ofNat, hlevel]

end Sys2Proof.Machine
end

section
/-!
PROOFS. Day Start (R196, R201) and the release of the reset pin (R200), with the Pace mark that a head
requests at T = 0 (R110, R115).
-/
namespace Sys2Proof.Machine

/-! ### The mark at T = 0 (R110, R115, R116) -/

theorem requestPace_of_not_head {s : State} (h : s.isHead = false ∨ s.listenOnly = true) :
    requestPace s = s := by
  unfold requestPace
  split
  · rfl
  · next r hr =>
    have hsend : (s.listenOnly || s.straps.segment != 0) = true := by
      rcases h with h | h
      · simp only [State.isHead, hr, Option.isSome_some, Bool.true_and] at h
        simp_all
      · simp [h]
    rw [if_pos hsend]

/-- R110: the request of a head that may send, in full. -/
theorem requestPace_of_head {s : State} {r : Fin 4} (hr : s.straps.ribbon = some r)
    (hseg : s.straps.segment = 0) (hl : s.listenOnly = false) : requestPace s =
      if (waitingFrames s.sendingGeneral s.line.generalQueue).any TxFrame.isPace then s
      else if s.generalFull then s.onCrawl (fun c => { c with pendingPace := true })
      else (queuePace r s).onCrawl (fun c => { c with pendingPace := false }) := by
  simp [requestPace, hr, hseg, hl]

/-- R196: a flushed queue holds the frame on the line at most. -/
theorem flushed_queue (onLine : Bool) (q : List TxFrame) :
    waitingFrames onLine (if onLine then q.take 1 else []) = [] ∧
      (if onLine then q.take 1 else []).length < 4 := by
  cases onLine <;> cases q <;> simp [waitingFrames]

/-- R115, R116: at T = 0, with nothing waiting and no request pending, a head that may send queues its mark;
nothing else changes. -/
theorem requestAtZero_of_clear {s : State} (hp : s.crawl.pendingPace = false)
    (hwait : waitingFrames s.sendingGeneral s.line.generalQueue = [])
    (hlen : s.line.generalQueue.length < 4) :
    ∃ queue, requestAtZero s = { s with line := { s.line with generalQueue := queue } } ∧
      (s.isHead = false ∨ s.listenOnly = true → queue = s.line.generalQueue) ∧
      (∀ r, s.straps.ribbon = some r → s.straps.segment = 0 → s.listenOnly = false →
        queue = s.line.generalQueue ++ [⟨0, .pace r, 0⟩]) := by
  by_cases hsend : s.isHead = false ∨ s.listenOnly = true
  · refine ⟨s.line.generalQueue, ?_, fun _ => rfl, fun r hr hseg hl => ?_⟩
    · unfold requestAtZero
      rw [requestPace_of_not_head hsend, ite_self]
    · simp [State.isHead, hr, hseg, hl] at hsend
  · obtain ⟨hhead, hl⟩ : s.isHead = true ∧ s.listenOnly = false := by simpa using hsend
    obtain ⟨hribbon, hseg⟩ : s.straps.ribbon.isSome = true ∧ s.straps.segment = 0 := by
      simpa [State.isHead] using hhead
    obtain ⟨r, hr⟩ := Option.isSome_iff_exists.1 hribbon
    refine ⟨s.line.generalQueue ++ [⟨0, .pace r, 0⟩], ?_, fun h => absurd h hsend, fun r' hr' _ _ => ?_⟩
    · rw [requestAtZero, if_pos hhead, requestPace_of_head hr hseg hl, hwait, List.any_nil,
        if_neg (by decide), if_neg (Bool.eq_false_iff.1 (generalFull_of_lt hlen)), ← hp]
      rfl
    · rw [show r' = r from Option.some_inj.1 (hr'.symm.trans hr)]

/-! ### Day Start (R201) -/

theorem resetTerminal_eq (t : Fin 4) (s : State) : resetTerminal t s =
    s.withTerminals (s.terminals.set t (if s.active t then (s.term t).dayStart else s.term t)) := by
  unfold resetTerminal
  split_ifs
  · rfl
  · exact (s.setTerm_term t).symm

/-- R156: Day Start at the terminals changes the active ones and nothing else. -/
theorem resetTerminals_eq (s : State) : ∃ q, resetTerminals s = s.withTerminals q ∧
    ∀ u, q.get u = if s.active u then (s.term u).dayStart else s.term u := by
  simp only [resetTerminals, resetTerminal_eq]
  refine ⟨_, rfl, fun u => ?_⟩
  match u with
  | 0 => rfl
  | 1 => rfl
  | 2 => rfl
  | 3 => rfl

/-- R196, R201: what a Day Start leaves before the head's mark. -/
theorem dayStarted_eq (s : State) : ∃ q : Quad Terminal,
    (∀ u, q.get u = if s.active u then (s.term u).dayStart else s.term u) ∧
    s.dayStarted = { s with
      table := []
      cells := s.cells.map CellRecord.dayStart
      composer := Composer.atReset
      crawl := s.crawl.dayStart s.isHead
      terminals := q
      line := { s.line with
        tapeQueue := if s.sendingTape then s.line.tapeQueue.take 1 else []
        generalQueue := if s.sendingGeneral then s.line.generalQueue.take 1 else [] } } := by
  obtain ⟨q, hq, hget⟩ := resetTerminals_eq s.boardCleared
  refine ⟨q, hget, ?_⟩
  rw [State.dayStarted, hq]
  rfl

/-- Settles O41: `dayStarted_eq`, and the mark by `requestAtZero_of_clear`. -/
theorem dayStartResetsBlocks : Obligations.DayStartResetsBlocks := by
  intro f s h hdest hbody
  obtain ⟨q, hget, heq⟩ := dayStarted_eq s.dispatched
  obtain ⟨hwait, hlen⟩ := flushed_queue s.sendingGeneral s.line.generalQueue
  obtain ⟨queue, hzero, hother, hhead⟩ := requestAtZero_of_clear (s := s.dispatched.dayStarted)
    (by rw [heq]; rfl) (by rw [heq]; exact hwait) (by rw [heq]; exact hlen)
  have hexec : exec (.dayStart f) s = .next (dayStart s.dispatched) :=
    exec_next_of h.1 (handled_map_of_taken (a := ()) h (by simpa using hdest) (by simp [readDayStart, hbody]))
  rw [dayStart_eq, hzero] at hexec
  rw [heq] at hexec hother hhead
  refine ⟨_, hexec, rfl, rfl, rfl, rfl, rfl, rfl, rfl, rfl, rfl, rfl, rfl, rfl, rfl, fun hh hseg => ?_,
    fun hh hseg => ⟨?_, rfl⟩, fun hseg => ?_, fun u hu => (hget u).trans (if_pos hu),
    fun u hu => (hget u).trans (if_neg (Bool.eq_false_iff.1 hu)), rfl, hother, hhead, rfl, rfl, rfl, rfl,
    rfl, rfl, rfl, rfl, rfl, rfl, rfl, rfl, rfl, rfl, rfl, rfl, rfl, rfl, rfl⟩
  · exact (if_neg (by simp [hseg, State.dispatched])).trans (if_pos hh)
  · exact (if_neg hseg).trans (if_neg (Bool.eq_false_iff.1 hh))
  · exact if_pos hseg

/-! ### Power-on (R200) -/

theorem powerOn_role (p : Straps) : (Crawl.powerOn p).pendingPace = false ∧
    Crawl.powerOn p = { Crawl.atReset with
      segState := if p.ribbon = none then .dark else if p.segment = 0 then .running else .waiting
      offset := if p.ribbon.isSome ∧ p.segment = 0 then some 0 else none } := by
  unfold Crawl.powerOn
  cases p.ribbon
  · exact ⟨rfl, rfl⟩
  · by_cases hseg : p.segment = 0 <;> simp [hseg, Crawl.atReset]

/-- Settles O20: the blocks by role, and the mark by `requestAtZero_of_clear`. -/
theorem powerOnStartsEveryBlock : Obligations.PowerOnStartsEveryBlock := by
  intro pins s
  obtain ⟨hp, hcrawl⟩ := powerOn_role (readStraps pins)
  obtain ⟨queue, hzero, hother, hhead⟩ :=
    requestAtZero_of_clear (s := s.powerOn (readStraps pins)) hp rfl (Nat.succ_pos 3)
  have hexec : exec (.powerOnReset pins) s = _ := (exec_powerOnReset pins s).trans (congrArg _ hzero)
  rw [State.powerOn, hcrawl] at hexec
  rw [State.powerOn, hcrawl] at hother hhead
  refine ⟨_, hexec, rfl, rfl, rfl, rfl, rfl, fun hr => ⟨if_pos hr, if_neg fun h => ?_⟩, fun hh => ?_,
    fun hr hseg => ⟨(if_neg fun h => ?_).trans (if_neg hseg), if_neg fun h => hseg h.2⟩, rfl, rfl, rfl,
    rfl, rfl, rfl, rfl, rfl, rfl, rfl, rfl, rfl, rfl, rfl, rfl, rfl, fun u => term_reset u, rfl, rfl, rfl,
    rfl, rfl, rfl, rfl, rfl, rfl, rfl, rfl, rfl, hhead, hother, fun k => ?_, rfl, rfl⟩
  · exact absurd (show (readStraps pins).ribbon = none from hr) (Option.isSome_iff_ne_none.1 h.1)
  · obtain ⟨hr, hseg⟩ : (readStraps pins).ribbon.isSome = true ∧ (readStraps pins).segment = 0 := by
      simpa [State.isHead] using hh
    exact ⟨(if_neg fun h => by simp [h] at hr).trans (if_pos hseg), if_pos ⟨hr, hseg⟩⟩
  · exact absurd h (Option.isSome_iff_ne_none.1 hr)
  · cases k <;> rfl

end Sys2Proof.Machine
end

section
/-!
PROOFS. The floor tick (00 Timebase): what each of its parts does, and the asks it times out (R159).
-/
namespace Sys2Proof.Machine

/-! ### The asks that time out (R159) -/

/-- R159: a terminal whose ask has timed out. -/
def Terminal.timedOut (m : Terminal) : Terminal :=
  { m with ask := none, state := .idle, entry := [], keyQueue := [], message := some .noQuote,
           messageTimer := 40 }

/-- R159: what the tick of its ask's deadline makes of a terminal. -/
def State.afterTimeout (s : State) (u : Fin 4) : Terminal :=
  if askDue u s then (s.term u).timedOut else s.term u

theorem askDue_iff (u : Fin 4) (s : State) :
    askDue u s = true ↔ ∃ a, (s.term u).ask = some a ∧ a.deadline = s.tickCount := by
  unfold askDue
  cases (s.term u).ask <;> simp

/-- R159: a timeout reaches the line, the tallies and its terminal, and none of them where it is not due. -/
theorem timeoutAsk_eq (u : Fin 4) (s : State) : ∃ line tallies, timeoutAsk u s =
      { s with
        line := line
        tallies := tallies
        terminals := s.terminals.set u (s.afterTimeout u) } ∧
    (askDue u s = false → line = s.line ∧ tallies = s.tallies) := by
  by_cases hdue : askDue u s = true
  · obtain ⟨a, ha, hd⟩ := (askDue_iff u s).1 hdue
    rw [timeoutAsk_of_due ha hd, State.afterTimeout, hdue]
    exact ⟨_, _, rfl, fun h => absurd h (by decide)⟩
  · have hnot : timeoutAsk u s = s := if_neg hdue
    rw [hnot, State.afterTimeout, Bool.eq_false_iff.2 hdue]
    exact ⟨s.line, s.tallies, (s.setTerm_term u).symm, fun _ => ⟨rfl, rfl⟩⟩

/-- R159: the asks that a tick times out, all four terminals together. -/
theorem timeoutAsks_eq (s : State) : ∃ line tallies q, timeoutAsks s =
      { s with line := line, tallies := tallies, terminals := q } ∧
    (∀ u, q.get u = s.afterTimeout u) ∧
    ((∀ u, askDue u s = false) → line = s.line ∧ tallies = s.tallies) := by
  obtain ⟨l0, c0, h0, k0⟩ := timeoutAsk_eq 0 s
  obtain ⟨l1, c1, h1, k1⟩ := timeoutAsk_eq 1 (timeoutAsk 0 s)
  obtain ⟨l2, c2, h2, k2⟩ := timeoutAsk_eq 2 (timeoutAsk 1 (timeoutAsk 0 s))
  obtain ⟨l3, c3, h3, k3⟩ := timeoutAsk_eq 3 (timeoutAsk 2 (timeoutAsk 1 (timeoutAsk 0 s)))
  rw [h0] at h1 k1
  rw [h0, h1] at h2 k2
  rw [h0, h1, h2] at h3 k3
  refine ⟨l3, c3, ⟨s.afterTimeout 0, s.afterTimeout 1, s.afterTimeout 2, s.afterTimeout 3⟩, ?_,
    fun u => ?_, fun hnone => ?_⟩
  · rw [timeoutAsks, h0, h1, h2, h3]
    rfl
  · match u with
    | 0 => rfl
    | 1 => rfl
    | 2 => rfl
    | 3 => rfl
  · obtain ⟨rfl, rfl⟩ := k0 (hnone 0)
    obtain ⟨rfl, rfl⟩ := k1 (hnone 1)
    obtain ⟨rfl, rfl⟩ := k2 (hnone 2)
    exact k3 (hnone 3)

/-! ### The parts of a tick -/

theorem QuoteRecord.tick_eq (r : QuoteRecord) :
    r.tick = { r with age := if r.age < 65535 then r.age + 1 else r.age } := by
  unfold QuoteRecord.tick
  split_ifs <;> rfl

theorem CellRecord.shift_eq (c : CellRecord) : c.shift =
    if c.pattern = .steady then c
    else if c.position + 1 ≤ c.pattern.length then { c with position := c.position + 1 }
    else if c.repeats then { c with position := 1 }
    else { c with pattern := .steady, position := 0, repeats := false } := by
  unfold CellRecord.shift
  split_ifs with hs hlt hle hle
  · rfl
  · omega
  · rw [CellRecord.patternEnd, if_pos ‹_›]
  · rw [CellRecord.patternEnd, if_neg ‹_›]
    rfl
  · rfl
  · omega
  · omega

theorem Terminal.tick_eq (m : Terminal) : m.tick =
    { m with beeper := m.beeper - 1
             beeperOn := if m.beeper ≤ 1 then false else m.beeperOn
             messageTimer := m.messageTimer - 1
             message := if m.messageTimer ≤ 1 then none else m.message } := by
  have hzero : ∀ n : Nat, (n - 1 = 0) = (n ≤ 1) := fun n => by rw [eq_iff_iff]; omega
  unfold Terminal.tick Terminal.messageExpiry Terminal.beeperExpiry
  simp only [hzero]
  split_ifs <;> simp_all

/-- R75: the idle timer after a tick. -/
theorem idleTick_composer {s : State} (h : s.isHead = true) {n : Nat} (hn : s.composer.idleTimer = some n) :
    (idleTick s).composer = { s.composer with
      idleTimer := some (if n < 127 then n + 1 else if s.composer.level = 0 then 0 else max n 128) } := by
  have hcount : s.composer.countIdle = { s.composer with
      idleTimer := some (if n < 128 then n + 1 else n) } := by
    simp only [Composer.countIdle, hn]
    split_ifs
    · rfl
    · rw [← hn]
  rw [idleTick, if_pos h]
  show s.composer.countIdle.idleExpiry = _
  rw [hcount]
  unfold Composer.idleExpiry
  simp only
  split_ifs <;> simp_all <;> omega

theorem idleTick_composer_of_none {s : State} (hn : s.composer.idleTimer = none) :
    (idleTick s).composer = s.composer := by
  unfold idleTick
  split_ifs
  · show s.composer.countIdle.idleExpiry = s.composer
    have hcount : s.composer.countIdle = s.composer := by simp only [Composer.countIdle, hn]
    rw [hcount]
    simp only [Composer.idleExpiry, hn]
  · rfl

theorem floorTick_parts (s : State) : floorTick s = lineSilenceTick (timeoutAsks { s with
    tickCount := s.tickCount + 1
    table := s.table.map QuoteRecord.tick
    cells := s.cells.map CellRecord.shift
    lamps := (warmUpTick s).lamps
    composer := (idleTick s).composer
    crawl := s.crawl.silenceTick
    terminals := s.terminals.map Terminal.tick }) := by
  rw [floorTick_eq]
  unfold idleTick
  split_ifs with h h'
  · rfl
  · exact absurd h h'
  · exact absurd ‹_› h
  · rfl

/-- Settles O21: the parts one by one, the timeouts by `timeoutAsks_eq`. -/
theorem floorTickAdvances : Obligations.FloorTickAdvances := by
  intro s hr
  refine ⟨floorTick s, exec_next_of hr rfl, ?_⟩
  rw [floorTick_parts]
  generalize hmid : ({ s with
    tickCount := s.tickCount + 1
    table := s.table.map QuoteRecord.tick
    cells := s.cells.map CellRecord.shift
    lamps := (warmUpTick s).lamps
    composer := (idleTick s).composer
    crawl := s.crawl.silenceTick
    terminals := s.terminals.map Terminal.tick } : State) = mid
  have hterm : ∀ u, mid.term u = (s.term u).tick := fun u => by rw [← hmid]; exact Quad.get_map _ _ _
  have hdue : ∀ u, askDue u mid = true ↔ ∃ a, (s.term u).ask = some a ∧ a.deadline = s.tickCount + 1 := by
    intro u
    have hask : (mid.term u).ask = (s.term u).ask := by rw [hterm, Terminal.tick_eq]
    have htick : mid.tickCount = s.tickCount + 1 := by rw [← hmid]
    rw [askDue_iff, hask, htick]
  obtain ⟨line, tallies, q, heq, hget, hquiet⟩ := timeoutAsks_eq mid
  rw [lineSilenceTick_eq, heq]
  subst hmid
  refine ⟨hr, rfl, rfl, rfl, List.map_congr_left fun r _ => r.tick_eq, List.map_congr_left fun c _ => c.shift_eq,
    rfl, fun hh => ?_, fun hh n hn hlt => ?_, fun hh n hn hle => ?_, fun hn => ?_, rfl, rfl, rfl,
    fun u hu => ?_, fun u a ha hd => ?_, fun hnone => ?_⟩
  · show (idleTick s).composer = s.composer
    rw [idleTick, if_neg (Bool.eq_false_iff.1 hh)]
  · exact (idleTick_composer hh hn).trans (by rw [if_pos hlt])
  · exact (idleTick_composer hh hn).trans (by rw [if_neg (by omega)])
  · exact idleTick_composer_of_none hn
  · rw [← Terminal.tick_eq, ← hterm u]
    exact (hget u).trans (if_neg fun h => by
      obtain ⟨a, ha, hd⟩ := (hdue u).1 h
      exact hu a ha hd)
  · have hu : q.get u = ((s.term u).tick).timedOut := by
      rw [← hterm u]
      exact (hget u).trans (if_pos ((hdue u).2 ⟨a, ha, hd⟩))
    exact ⟨congrArg Terminal.ask hu, congrArg Terminal.state hu, congrArg Terminal.entry hu,
      congrArg Terminal.keyQueue hu, congrArg Terminal.message hu, congrArg Terminal.messageTimer hu⟩
  · exact hquiet fun u => Bool.eq_false_iff.2 fun h => by
      obtain ⟨a, ha, hd⟩ := (hdue u).1 h
      exact hnone u a ha hd

end Sys2Proof.Machine
end

section
/-!
PROOFS. The refresh frame (R117): the latch, the displays (R153, R154) and the scan of the matrices
(R136 to R139).
-/
namespace Sys2Proof.Machine

/-! ### One scan (R136 to R139) -/

theorem downCount_eq (raw : BitVec 48) :
    downCount raw = ((List.range 44).filter (fun p => raw.getLsbD p)).length := by
  have hsplit : List.range 48 = List.range 44 ++ [44, 45, 46, 47] := by decide
  unfold downCount
  rw [hsplit, List.filter_append]
  have htail : [44, 45, 46, 47].filter (rawDown raw) = [] := by simp [rawDown]
  rw [htail, List.append_nil]
  refine congrArg List.length (List.filter_congr fun p hp => ?_)
  simp [rawDown, List.mem_range.1 hp]

theorem lockAfter_eq (raw : BitVec 48) (m : Terminal) :
    lockAfter m.ghostLock (downCount raw) = lockAtScan raw m := by
  unfold lockAfter lockAtScan
  rw [downCount_eq]
  generalize ((List.range 44).filter fun p => raw.getLsbD p).length = n
  by_cases h : 2 ≤ n
  · rw [if_pos h, if_neg (show ¬n ≤ 1 by omega)]
  · rw [if_neg h, if_pos (show n ≤ 1 by omega)]

theorem debounceAtScan_eq (raw : Bool) (d : Debounce) : Debounce.scan raw d = debounceAtScan raw d := by
  unfold Debounce.scan debounceAtScan
  by_cases h : d.count < 2
  · rw [if_pos h, if_neg (show ¬3 ≤ d.count + 1 by omega)]
  · rw [if_neg h, if_pos (show 3 ≤ d.count + 1 by omega)]

theorem scanned_eq (raw : BitVec 48) (m : Terminal) : scanned raw m.debounce = debouncesAtScan raw m := by
  unfold scanned debouncesAtScan
  rw [List.zipWith_map_left, List.zip, List.map_zipWith]
  simp only [debounceAtScan_eq, rawDown]

/-- R137: the debounce state of one position after a scan. -/
theorem scanned_getElem? (raw : BitVec 48) (old : List Debounce) (i : Nat) :
    (scanned raw old)[i]? = if i < 48 then old[i]?.map (Debounce.scan (rawDown raw i)) else none := by
  simp only [scanned, List.getElem?_zipWith, List.getElem?_map]
  split_ifs with hi
  · rw [List.getElem?_range hi]
    cases old[i]? <;> rfl
  · rw [List.getElem?_eq_none (by simpa using hi)]
    rfl

/-- R137: a position that reads up does not turn from up to down. -/
theorem scan_down_of_up (d : Debounce) (h : d.down = false) : (Debounce.scan false d).down = false := by
  simp [Debounce.scan, h]

/-- R139: the keys of the positions pressed, those of the 44 that have a switch. -/
theorem pressed_keys (raw : BitVec 48) (m : Terminal) :
    (pressed m.debounce (scanned raw m.debounce)).filterMap keyOfCode = (List.range 44).filterMap (fun p =>
      match m.debounce[p]?, (debouncesAtScan raw m)[p]? with
      | some old, some new => if old.down = false ∧ new.down = true then keyOfCode p else none
      | _, _ => none) := by
  have hsplit : List.range 48 = List.range 44 ++ [44, 45, 46, 47] := by decide
  have htail : ∀ p, 44 ≤ p → p < 48 → (!(m.debounce.getD p ⟨false, 0⟩).down &&
      ((scanned raw m.debounce).getD p ⟨false, 0⟩).down) = false := by
    intro p h1 h2
    rw [List.getD_eq_getElem?_getD, List.getD_eq_getElem?_getD, scanned_getElem?, if_pos h2,
      show rawDown raw p = false by simp [rawDown, h1]]
    cases m.debounce[p]? with
    | none => rfl
    | some d =>
      cases hd : d.down
      · simp [hd, scan_down_of_up d hd]
      · simp [hd]
  rw [pressed, hsplit, List.filter_append,
    List.filter_eq_nil_iff.2 fun p (hp : p ∈ [44, 45, 46, 47]) => ?_, List.append_nil,
    List.filterMap_filter]
  rotate_left
  · have hrange : 44 ≤ p ∧ p < 48 := by simp at hp; omega
    exact Bool.eq_false_iff.1 (htail p hrange.1 hrange.2)
  refine List.filterMap_congr fun p hp => ?_
  have hlt : p < 48 := Nat.lt_trans (List.mem_range.1 hp) (by decide)
  rw [← scanned_eq, List.getD_eq_getElem?_getD, List.getD_eq_getElem?_getD, scanned_getElem?, if_pos hlt]
  cases m.debounce[p]? with
  | none => rfl
  | some d => simp

theorem foldl_offerCode_eq (t : Fin 4) (codes : List Nat) (s : State) :
    codes.foldl (offerCode t) s = (codes.filterMap keyOfCode).foldl (fun s k => offerKey t k s) s := by
  induction codes generalizing s with
  | nil => rfl
  | cons code codes ih =>
    rw [List.foldl_cons, ih, offerCode]
    cases hk : keyOfCode code with
    | none => rw [List.filterMap_cons_none hk]
    | some k => rw [List.filterMap_cons_some hk]; rfl

/-- R136 to R139: a scan, in the terms of the laws of the key scan. -/
theorem scanTerminal_eq (t : Fin 4) (raw : BitVec 48) (s : State) : scanTerminal t raw s =
    if s.active t then (keysAtScan raw (s.term t)).foldl (fun s k => offerKey t k s)
      (s.setTerm t { s.term t with
        ghostLock := lockAtScan raw (s.term t), debounce := debouncesAtScan raw (s.term t) })
    else s := by
  unfold scanTerminal
  rw [lockAfter_eq, foldl_offerCode_eq, pressed_keys]
  split_ifs with ha hl
  · rw [keysAtScan, if_pos hl, hl, ← scanned_eq]
    rfl
  · rw [keysAtScan, if_neg hl, Bool.eq_false_iff.2 hl, ← scanned_eq]
    rfl
  · rfl

theorem keysInTurn_eq (t : Fin 4) (ks : List Key) {s : State} (hr : s.resetAsserted = false) :
    keysInTurn t ks s = .next (ks.foldl (fun s k => offerKey t k s) s) := by
  induction ks generalizing s with
  | nil => rfl
  | cons k ks ih =>
    rw [keysInTurn, exec_keyCommand hr]
    exact ih ((offerKey_scan t s k).resetAsserted.trans hr)

theorem scanInTurn_eq (t : Fin 4) (raw : BitVec 48) {s : State} (hr : s.resetAsserted = false) :
    scanInTurn t raw s = .next (scanTerminal t raw s) := by
  rw [scanInTurn, scanTerminal_eq]
  split_ifs
  · exact keysInTurn_eq t _ hr
  · rfl

theorem offerKey_debounce (t : Fin 4) (k : Key) (s : State) :
    ((offerKey t k s).term t).debounce = (s.term t).debounce ∧
    ((offerKey t k s).term t).ghostLock = (s.term t).ghostLock := by
  rcases offerKey_cases t s k with ⟨-, -, e⟩ | h
  · rw [e, rejectBeep, State.term_onTerm_self]
    exact ⟨rfl, rfl⟩
  · exact ⟨h.debounce, h.ghostLock⟩

/-- R137, R138: what a scan leaves of an active terminal's debounce state and ghost lock. -/
theorem scanTerminal_debounce {t : Fin 4} {s : State} (ha : s.active t = true) (raw : BitVec 48) :
    ((scanTerminal t raw s).term t).debounce = debouncesAtScan raw (s.term t) ∧
    ((scanTerminal t raw s).term t).ghostLock = lockAtScan raw (s.term t) := by
  have hkeys : ∀ (ks : List Key) (u : State),
      ((ks.foldl (fun s k => offerKey t k s) u).term t).debounce = (u.term t).debounce ∧
      ((ks.foldl (fun s k => offerKey t k s) u).term t).ghostLock = (u.term t).ghostLock := by
    intro ks
    induction ks with
    | nil => exact fun u => ⟨rfl, rfl⟩
    | cons k ks ih =>
      exact fun u => ⟨(ih _).1.trans (offerKey_debounce t k u).1, (ih _).2.trans (offerKey_debounce t k u).2⟩
  rw [scanTerminal_eq, if_pos ha, (hkeys _ _).1, (hkeys _ _).2, State.term_setTerm_self]
  exact ⟨rfl, rfl⟩

/-- R136: a scan that produces no key leaves everything but its terminal's debounce state and ghost lock. -/
theorem scanTerminal_of_no_keys {t : Fin 4} {raw : BitVec 48} {s : State}
    (h : s.active t = true → keysAtScan raw (s.term t) = []) : ∃ x, scanTerminal t raw s = s.setTerm t x ∧
      x = { s.term t with debounce := x.debounce, ghostLock := x.ghostLock } := by
  rw [scanTerminal_eq]
  split_ifs with ha
  · rw [h ha]
    exact ⟨_, rfl, rfl⟩
  · exact ⟨s.term t, (s.setTerm_term t).symm, rfl⟩

/-! ### The four scans -/

/-- R136: in the scans of a frame each terminal's comes with its own matrix, the others leaving it as it
was. -/
theorem scanKeys_term (raws : Quad (BitVec 48)) (s : State) (u : Fin 4) :
    ∃ v, v.term u = s.term u ∧ v.active u = s.active u ∧
      (scanKeys (raws.get 0) (raws.get 1) (raws.get 2) (raws.get 3) s).term u =
        (scanTerminal u (raws.get u) v).term u := by
  have h0 := scanTerminal_scan 0 s (raws.get 0)
  have h1 := scanTerminal_scan 1 (scanTerminal 0 (raws.get 0) s) (raws.get 1)
  have h2 := scanTerminal_scan 2 (scanTerminal 1 (raws.get 1) (scanTerminal 0 (raws.get 0) s)) (raws.get 2)
  have h3 := scanTerminal_scan 3
    (scanTerminal 2 (raws.get 2) (scanTerminal 1 (raws.get 1) (scanTerminal 0 (raws.get 0) s))) (raws.get 3)
  match u with
  | 0 => exact ⟨s, rfl, rfl, ((h3.others 0 (by decide)).trans (h2.others 0 (by decide))).trans
      (h1.others 0 (by decide))⟩
  | 1 => exact ⟨_, h0.others 1 (by decide), active_of_straps h0.straps 1,
      (h3.others 1 (by decide)).trans (h2.others 1 (by decide))⟩
  | 2 => exact ⟨_, (h1.others 2 (by decide)).trans (h0.others 2 (by decide)),
      active_of_straps (h1.straps.trans h0.straps) 2, h3.others 2 (by decide)⟩
  | 3 => exact ⟨_, ((h2.others 3 (by decide)).trans (h1.others 3 (by decide))).trans
      (h0.others 3 (by decide)), active_of_straps ((h2.straps.trans h1.straps).trans h0.straps) 3, rfl⟩

theorem scanKeys_cells (r0 r1 r2 r3 : BitVec 48) (s : State) : (scanKeys r0 r1 r2 r3 s).cells = s.cells :=
  (scanTerminal_scan 3 _ r3).cells.trans ((scanTerminal_scan 2 _ r2).cells.trans
    ((scanTerminal_scan 1 _ r1).cells.trans (scanTerminal_scan 0 s r0).cells))

/-- A terminal after a scan that produced no key. -/
def scannedQuietly (m x : Terminal) : Prop :=
  x = { m with debounce := x.debounce, ghostLock := x.ghostLock }

/-- R136: the scans of a frame that produce no key. -/
theorem scanKeys_of_no_keys (raws : Quad (BitVec 48)) {s : State}
    (h : ∀ u, s.active u = true → keysAtScan (raws.get u) (s.term u) = []) :
    ∃ q, scanKeys (raws.get 0) (raws.get 1) (raws.get 2) (raws.get 3) s = s.withTerminals q ∧
      ∀ u, scannedQuietly (s.term u) (q.get u) := by
  obtain ⟨x0, e0, k0⟩ := scanTerminal_of_no_keys (h 0)
  obtain ⟨x1, e1, k1⟩ := scanTerminal_of_no_keys (s := s.setTerm 0 x0) (h 1)
  obtain ⟨x2, e2, k2⟩ := scanTerminal_of_no_keys (s := (s.setTerm 0 x0).setTerm 1 x1) (h 2)
  obtain ⟨x3, e3, k3⟩ := scanTerminal_of_no_keys (s := ((s.setTerm 0 x0).setTerm 1 x1).setTerm 2 x2) (h 3)
  refine ⟨⟨x0, x1, x2, x3⟩, ?_, fun u => ?_⟩
  · rw [scanKeys, e0, e1, e2, e3]
    rfl
  · match u with
    | 0 => exact k0
    | 1 => exact k1
    | 2 => exact k2
    | 3 => exact k3

/-! ### The displays (R153, R154) -/

theorem padRight_length (n : Nat) (t : List Glyph) : (padRight n t).length = n := by
  simp only [padRight, List.length_append, List.length_take, List.length_replicate]
  omega

/-- R135, R153: terminal u with its display lines, where it is active. -/
def State.displayed (s : State) (u : Fin 4) : Terminal :=
  if s.active u then { s.term u with display := ⟨line1 s (s.term u), line2 s (s.term u)⟩ } else s.term u

theorem composeDisplay_eq (t : Fin 4) (s : State) : composeDisplay t s = s.setTerm t (s.displayed t) := by
  unfold composeDisplay State.displayed
  split_ifs
  · rfl
  · exact (s.setTerm_term t).symm

theorem composeDisplays_eq (s : State) : composeDisplays s =
    s.withTerminals ⟨s.displayed 0, s.displayed 1, s.displayed 2, s.displayed 3⟩ := by
  simp only [composeDisplays, composeDisplay_eq]
  rfl

theorem quad_of_get {α : Type} (f : Fin 4 → α) (u : Fin 4) :
    (⟨f 0, f 1, f 2, f 3⟩ : Quad α).get u = f u := by
  match u with
  | 0 => rfl
  | 1 => rfl
  | 2 => rfl
  | 3 => rfl

/-! ### The frame -/

/-- Settles O18: the latch and the displays by `composeDisplays_eq`, the scans by `scanInTurn_eq` and
`scanKeys_term`. -/
theorem refreshFrameLatches : Obligations.RefreshFrameLatches := by
  intro r0 r1 r2 r3 s hr
  generalize hlatched : composeDisplays (latchFrame s) = latched
  have hexec : exec (.refreshFrame r0 r1 r2 r3) s = .next (scanKeys r0 r1 r2 r3 latched) :=
    exec_next_of hr (by rw [← hlatched]; rfl)
  rw [composeDisplays_eq] at hlatched
  have hterm : ∀ u, latched.term u = s.displayed u := fun u => by
    rw [← hlatched]
    exact quad_of_get (State.displayed (latchFrame s)) u
  have hlr : latched.resetAsserted = false := by rw [← hlatched]; exact hr
  have hactive : ∀ u, latched.active u = s.active u := fun u => by rw [← hlatched]; rfl
  have hscan : DeskFootprint latched (scanKeys r0 r1 r2 r3 latched) := scanKeys_desk _ _ _ _ _
  have htactive : ∀ u, (scanKeys r0 r1 r2 r3 latched).active u = s.active u := fun u =>
    (active_of_straps hscan.straps u).trans (hactive u)
  have hdisplay : ∀ u, ((scanKeys r0 r1 r2 r3 latched).term u).display = (s.displayed u).display := fun u => by
    obtain ⟨v, hv, -, ht⟩ := scanKeys_term ⟨r0, r1, r2, r3⟩ latched u
    exact (congrArg Terminal.display ht).trans
      ((scanTerminal_scan u v _).display.trans (congrArg Terminal.display (hv.trans (hterm u))))
  refine ⟨scanKeys r0 r1 r2 r3 latched, latched, hexec, ?_, ?_, fun u raw ha h0 h1 h2 h3 => ?_, ?_,
    fun u => ?_, fun u ha => ?_, hscan.resetAsserted.trans hlr, ?_, ?_, ?_, ?_, ?_, ?_,
    fun k0 k1 k2 k3 => ?_⟩
  · exact ⟨_, quad_of_get s.displayed, hlatched.symm⟩
  · rw [hexec]
    have hs0 := scanTerminal_scan 0 latched r0
    have hs1 := scanTerminal_scan 1 (scanTerminal 0 r0 latched) r1
    have hs2 := scanTerminal_scan 2 (scanTerminal 1 r1 (scanTerminal 0 r0 latched)) r2
    have hr0 := hs0.resetAsserted.trans hlr
    have hr1 := hs1.resetAsserted.trans hr0
    rw [scanInTurn_eq 0 r0 hlr, thenRun, scanInTurn_eq 1 r1 hr0, thenRun, scanInTurn_eq 2 r2 hr1, thenRun,
      scanInTurn_eq 3 r3 (hs2.resetAsserted.trans hr1)]
    rfl
  · have hraw : (⟨r0, r1, r2, r3⟩ : Quad (BitVec 48)).get u = raw := by
      match u with
      | 0 => exact (h0 rfl).symm
      | 1 => exact (h1 rfl).symm
      | 2 => exact (h2 rfl).symm
      | 3 => exact (h3 rfl).symm
    obtain ⟨v, hv, hva, ht⟩ := scanKeys_term ⟨r0, r1, r2, r3⟩ latched u
    rw [hraw] at ht
    obtain ⟨hdeb, hlock⟩ := scanTerminal_debounce (hva.trans ((hactive u).trans ha)) raw
    have hshown : s.displayed u = { s.term u with display := ⟨line1 s (s.term u), line2 s (s.term u)⟩ } :=
      if_pos ha
    rw [hv, hterm, hshown] at hdeb hlock
    refine ⟨(congrArg Terminal.debounce ht).trans hdeb, (congrArg Terminal.ghostLock ht).trans hlock, ?_,
      padRight_length 20 _, padRight_length 20 _⟩
    rw [displayCodes, htactive, if_pos ha, hdisplay, hshown]
  · rw [hscan.lamps, ← hlatched]
    rfl
  · rw [hdisplay, State.displayed]
    split_ifs <;> rfl
  · have hoff : s.displayed u = s.term u := if_neg (Bool.eq_false_iff.1 ha)
    obtain ⟨v, hv, hva, ht⟩ := scanKeys_term ⟨r0, r1, r2, r3⟩ latched u
    refine ⟨ht.trans ?_, ?_⟩
    · rw [scanTerminal_eq, if_neg (Bool.eq_false_iff.1 (hva.trans ((hactive u).trans ha))), hv, hterm, hoff]
    · rw [displayCodes, htactive, if_neg (Bool.eq_false_iff.1 ha)]
  · rw [hscan.tickCount, ← hlatched]
    rfl
  · rw [scanKeys_cells, ← hlatched]
    rfl
  · rw [hscan.composer, ← hlatched]
    rfl
  · rw [hscan.crawl, ← hlatched]
    rfl
  · rw [hscan.lineSilence, ← hlatched]
    rfl
  · rw [hscan.faultLamp, ← hlatched]
    rfl
  · have hquiet : ∀ u, latched.active u = true →
        keysAtScan ((⟨r0, r1, r2, r3⟩ : Quad (BitVec 48)).get u) (latched.term u) = [] := by
      intro u ha
      have hsame : keysAtScan ((⟨r0, r1, r2, r3⟩ : Quad (BitVec 48)).get u) (latched.term u) =
          keysAtScan ((⟨r0, r1, r2, r3⟩ : Quad (BitVec 48)).get u) (s.term u) := by
        rw [hterm, State.displayed]
        split_ifs <;> rfl
      rw [hactive] at ha
      rw [hsame]
      match u with
      | 0 => exact k0 ha
      | 1 => exact k1 ha
      | 2 => exact k2 ha
      | 3 => exact k3 ha
    obtain ⟨q, hq, hget⟩ := scanKeys_of_no_keys ⟨r0, r1, r2, r3⟩ hquiet
    have hq' : scanKeys r0 r1 r2 r3 latched = latched.withTerminals q := hq
    rw [hq', ← hlatched]
    refine ⟨rfl, rfl, rfl, rfl, fun u => ?_⟩
    have hu := hget u
    rw [hterm, scannedQuietly, State.displayed] at hu
    show q.get u = { s.term u with display := (q.get u).display, debounce := (q.get u).debounce,
                                   ghostLock := (q.get u).ghostLock }
    split_ifs at hu <;> rw [hu]

end Sys2Proof.Machine
end

section
/-!
PROOFS. The frames that the frame handler ignores, refuses and takes (R192 to R194): the checks of a body
(R1 to R5, R206, R208, R209) against what its reader reads.
-/
namespace Sys2Proof.Machine

/-! ### Fields (R1 to R5, R206) -/

section Fields
variable (b : List Byte) (i : Nat)

theorem count16_eq : count16 b i = field16 b i := by
  have hlow := (byteAt b i).isLt
  simp only [count16, word16, field16, BitVec.toNat_append]
  rw [Nat.shiftLeft_eq, ← Nat.mul_comm (2 ^ 8), ← Nat.two_pow_add_eq_or_of_lt hlow]
  omega

theorem priceOk_iff : priceOk b i ↔ priceValid (count16 b i) = true := by
  rw [count16_eq, priceValid, decide_eq_true_iff]
  rfl

theorem isLetterCode_iff (c : Byte) : isLetterCode c = true ↔ 1 ≤ c.toNat ∧ c.toNat ≤ 26 := by
  simp [isLetterCode]

/-- R4: the letters come first and the spaces after them. -/
theorem symbolOk_iff : symbolOk b i ↔ (symbolAt b i).isSome = true := by
  have hspace : ∀ c : Byte, isLetterCode c = true → c ≠ 0 := by
    rintro c hc rfl
    exact absurd hc (by decide)
  have h0 := hspace (byteAt b i)
  have h1 := hspace (byteAt b (i + 1))
  have h2 := hspace (byteAt b (i + 2))
  have h3 := hspace (byteAt b (i + 3))
  have hvalid : (symbolAt b i).isSome = true ↔ symbolValid (byteAt b i) (byteAt b (i + 1))
      (byteAt b (i + 2)) (byteAt b (i + 3)) = true := by
    unfold symbolAt
    split_ifs with h <;> simp [h]
  rw [hvalid]
  simp only [symbolOk, symbolValid, ← isLetterCode_iff, Fin.exists_fin_succ, Fin.forall_fin_succ]
  simp
  grind

theorem isClearAt_iff : isClearAt b i = true ↔ ∀ k : Fin 4, byteAt b (i + k.val) = 0 := by
  simp [isClearAt, Fin.forall_fin_succ, and_assoc]

theorem kindOf_isSome : ∀ c : Byte, (kindOf c).isSome = true ↔ c.toNat ≤ 2 := by decide

theorem stateOf_isSome : ∀ c : Byte, (stateOf c).isSome = true ↔ c.toNat ≤ 3 := by decide

theorem tickOf_isSome : ∀ c : Byte, (tickOf c).isSome = true ↔ c.toNat ≤ 4 := by decide

theorem terminalOf_isSome (c : Byte) : (terminalOf c).isSome = true ↔ c.toNat ≤ 3 := by
  unfold terminalOf
  split_ifs with h
  · simpa using Nat.le_of_lt_succ h
  · simpa using Nat.lt_of_not_le fun hle => h (Nat.lt_succ_of_le hle)

theorem cellOf_isSome (c : Byte) : (cellOf c).isSome = true ↔ c.toNat ≤ 15 := by
  unfold cellOf
  split_ifs with h
  · simpa using Nat.le_of_lt_succ h
  · simpa using Nat.lt_of_not_le fun hle => h (Nat.lt_succ_of_le hle)

theorem flaggedPrice_isSome (present : Bool) :
    (flaggedPrice present (count16 b i)).isSome = true ↔ (present = true → priceOk b i) := by
  rw [priceOk_iff]
  unfold flaggedPrice
  cases present
  · simp
  · cases priceValid (count16 b i) <;> simp

theorem flaggedLast_isSome (present : Bool) (lots : Nat) (tick : Byte) :
    (flaggedLast present (count16 b i) lots tick).isSome = true ↔
      (present = true → priceOk b i ∧ tick.toNat ≤ 4) := by
  rw [priceOk_iff, ← tickOf_isSome]
  unfold flaggedLast
  cases present
  · simp
  · cases tickOf tick <;> cases priceValid (count16 b i) <;> simp

end Fields

/-! ### The bodies that pass (R208, R209) -/

section Bodies
variable (f : Frame)

theorem readPrint_isSome : (readPrint f).isSome = true ↔ bodyOk board .print f.body := by
  simp only [bodyOk, symbolOk_iff, priceOk_iff, ← kindOf_isSome, readPrint]
  cases kindOf (byteAt f.body 3) <;> cases symbolAt f.body 4 <;> simp

theorem readQuote_isSome : (readQuote f).isSome = true ↔ bodyOk board .quote f.body := by
  simp only [bodyOk, symbolOk_iff, ← count16_eq, readQuote]
  cases symbolAt f.body 0 with
  | none => simp
  | some y => exact Option.isSome_ite.trans (by simp [Config.priceMax])

theorem readStatus_isSome : (readStatus f).isSome = true ↔ bodyOk board .status f.body := by
  simp only [bodyOk, symbolOk_iff, ← stateOf_isSome, readStatus]
  cases symbolAt f.body 0 <;> cases stateOf (byteAt f.body 5) <;> simp

theorem readCancel_isSome : (readCancel f).isSome = true ↔ bodyOk board .cancel f.body := by
  simp only [bodyOk, symbolOk_iff, priceOk_iff, readCancel]
  cases symbolAt f.body 4 <;> simp

theorem planSymbol_isSome (b : List Byte) : (planSymbol b).isSome = true ↔
    symbolOk b 1 ∨ ∀ k : Fin 4, byteAt b (1 + k.val) = 0 := by
  rw [symbolOk_iff, ← isClearAt_iff, planSymbol]
  split_ifs with h <;> simp [h]

theorem readPlan_isSome (board : Bool) :
    (readPlan board f).isSome = true ↔ bodyOk board .plan f.body := by
  simp only [bodyOk, ← planSymbol_isSome, ← cellOf_isSome, ← count16_eq, readPlan]
  cases cellOf (byteAt f.body 0) with
  | none => simp
  | some c =>
    cases planSymbol f.body with
    | none => simp
    | some y => exact Option.isSome_ite.trans (by simp [Config.priceMax])

theorem readDayStart_isSome : (readDayStart f).isSome = true ↔ bodyOk board .dayStart f.body := by
  simp [bodyOk, readDayStart]

theorem readAsk_isSome : (readAsk f).isSome = true ↔ bodyOk board .ask f.body := by
  simp only [bodyOk, symbolOk_iff, ← terminalOf_isSome, readAsk]
  cases terminalOf (byteAt f.body 0) <;> cases symbolAt f.body 2 <;> simp

theorem readAnswer_isSome : (readAnswer f).isSome = true ↔ bodyOk board .answer f.body := by
  simp only [bodyOk, symbolOk_iff, ← terminalOf_isSome (byteAt f.body 0),
    ← stateOf_isSome (byteAt f.body 18), ← flaggedPrice_isSome,
    ← flaggedLast_isSome _ _ _ (count16 f.body 12), readAnswer]
  generalize terminalOf _ = t, symbolAt _ _ = y, stateOf _ = st, flaggedPrice _ (count16 f.body 7) = ref,
    flaggedLast _ _ _ _ = last, flaggedPrice _ (count16 f.body 14) = bid,
    flaggedPrice _ (count16 f.body 16) = ask
  cases t with
  | none => simp
  | some t =>
    cases y with
    | none => simp
    | some y =>
      cases st with
      | none => simp
      | some st => cases ref <;> cases last <;> cases bid <;> cases ask <;> simp

theorem readHandoff_isSome : (readHandoff f).isSome = true ↔ bodyOk board .handoff f.body := by
  simp [bodyOk, readHandoff]

theorem readPace_isSome : (readPace f).isSome = true ↔ bodyOk board .pace f.body := by
  simp only [bodyOk, ← terminalOf_isSome, readPace]
  cases terminalOf (byteAt f.body 0) <;> simp

theorem readTallyQuery_isSome : (readTallyQuery f).isSome = true ↔ bodyOk board .tallyQuery f.body := by
  simp [bodyOk, readTallyQuery]

end Bodies

/-! ### The frame handler (R192 to R194) -/

/-- R193: the frame handler hands a frame of this class to a block, as the commands test it. -/
def State.lists (s : State) (c : MsgClass) (f : Frame) : Bool :=
  match c with
  | .print | .quote | .status | .cancel | .pace => f.dest == 0
  | .plan | .answer | .tallyQuery => s.isOwnNumber f.dest
  | .dayStart => f.dest == 0 || s.isOwnNumber f.dest
  | .ask => takesAsk f s
  | .handoff => s.isOwnSegment f.dest
  | .tally => false

/-- R193: what the blocks do with a frame whose body passes its checks. -/
def State.messageEffect (s : State) (c : MsgClass) (f : Frame) : Option (State → State) :=
  match c with
  | .print => (readPrint f).map applyPrint
  | .quote => (readQuote f).map tableQuote
  | .status => (readStatus f).map applyStatus
  | .cancel => (readCancel f).map applyCancel
  | .plan => (readPlan s.straps.board f).map tablePlan
  | .dayStart => (readDayStart f).map fun _ => dayStart
  | .ask => (readAsk f).map (takeAsk f.origin)
  | .answer => (readAnswer f).map takeAnswer
  | .handoff => handoffEffect f s
  | .pace => (readPace f).map crawlPace
  | .tallyQuery => (readTallyQuery f).map (takeTallyQuery f.origin)
  | .tally => none

theorem lists_iff (s : State) (c : MsgClass) (f : Frame) : s.lists c f = true ↔ s.listsFrame c f := by
  cases c <;> simp [State.lists, State.listsFrame, takesAsk]

theorem exec_messageCommand {c : MsgClass} {f : Frame} {s : State} (hr : s.resetAsserted = false)
    (ho : c = .answer → s.isOtherStation f.dest = false) : exec (messageCommand c f) s =
      .next (handled c f (s.lists c f) (s.messageEffect c f) s) := by
  cases c
  case answer => exact exec_next_of hr (if_neg (Bool.eq_false_iff.1 (ho rfl)))
  all_goals exact exec_next_of hr rfl

/-- R194: a frame handed to its blocks has a body that passes its checks, and at a head is no Handoff. -/
theorem messageEffect_isSome {c : MsgClass} {f : Frame} {s : State} (h : s.listsFrame c f) :
    (s.messageEffect c f).isSome = true ↔
      bodyOk s.straps.board c f.body ∧ ¬(c = .handoff ∧ s.isHead = true) := by
  cases c
  case tally => exact absurd h id
  case handoff =>
    rw [← readHandoff_isSome f]
    simp only [State.messageEffect, handoffEffect]
    cases readHandoff f with
    | none => simp
    | some m => cases s.isHead <;> simp
  all_goals simp only [State.messageEffect, Option.isSome_map, reduceCtorEq, false_and, not_false_iff,
    and_true]
  · exact readPrint_isSome f
  · exact readQuote_isSome f
  · exact readStatus_isSome f
  · exact readCancel_isSome f
  · exact readPlan_isSome f _
  · exact readDayStart_isSome f
  · exact readAsk_isSome f
  · exact readAnswer_isSome f
  · exact readPace_isSome f
  · exact readTallyQuery_isSome f

/-- R192: s and t have the same slots, and a dispatch is in progress in both or in neither. -/
def slotsSame (s t : State) : Prop :=
  t.line.slots = s.line.slots ∧ t.line.dispatching = s.line.dispatching

theorem DeskFootprint.slotsSame {s t : State} (h : DeskFootprint s t) : slotsSame s t :=
  ⟨by rw [h.line], by rw [h.line]⟩

theorem TapeFootprint.slotsSame {s t : State} (h : TapeFootprint s t) : slotsSame s t :=
  ⟨by rw [h.line], by rw [h.line]⟩

theorem slotsSame.trans {s t u : State} (h : slotsSame s t) (k : slotsSame t u) : slotsSame s u :=
  ⟨k.1.trans h.1, k.2.trans h.2⟩

theorem dayStart_slotsSame (s : State) : slotsSame s (dayStart s) := by
  obtain ⟨q, -, heq⟩ := dayStarted_eq s
  rw [dayStart_eq]
  refine slotsSame.trans (t := s.dayStarted) ?_ (requestAtZero_tape _).slotsSame
  rw [heq]
  exact ⟨rfl, rfl⟩

/-- R192: what the blocks do with a frame leaves the slots and the dispatch alone. -/
theorem messageEffect_slotsSame {c : MsgClass} {f : Frame} {s u : State} {g : State → State}
    (hu : u.straps = s.straps) (hg : s.messageEffect c f = some g) (hl : s.lists c f = true) :
    slotsSame u (g u) := by
  cases c <;> simp only [State.messageEffect] at hg
  case handoff =>
    unfold handoffEffect at hg
    split at hg
    · split_ifs at hg
      cases hg
      exact (takeHandoff_tape _ _).slotsSame
    · cases hg
  case tally => cases hg
  all_goals obtain ⟨m, -, rfl⟩ := Option.map_eq_some_iff.1 hg
  · exact ((tablePrint_desk u m).trans (firePrint_desk _ m)).slotsSame.trans
      (composerPrint_tape _ m).slotsSame
  · exact (tableQuote_desk u m).slotsSame
  · exact (setRecordState_desk u _ _).slotsSame.trans (composerStatus_tape _ m).slotsSame
  · exact (tableCancel_desk u m).slotsSame.trans (composerCancel_tape _ m).slotsSame
  · exact (tablePlan_desk u m).slotsSame
  · exact dayStart_slotsSame u
  · exact (takeAsk_desk u _ m).slotsSame
  · exact (takeAnswer_desk u m).slotsSame
  · exact (crawlPace_tape u m).slotsSame
  · exact (takeTallyQuery_desk u _ _
      ((listenOnly_of_straps hu).trans (isOwnNumber_mayReply s hl))).slotsSame

theorem offers_of_not_canTake {c : MsgClass} {f : Frame} {s : State} (hr : s.resetAsserted = false)
    (h : ¬s.canTake c f) : s.offers c f = false := by
  refine Bool.eq_false_iff.2 fun ho => h ⟨hr, (offers_iff c f s).1 ho⟩

/-- R192 to R194: the frame of the oldest slot, ignored, refused or taken. -/
theorem handled_of_canTake {c : MsgClass} {f : Frame} {s : State} (h : s.canTake c f) (listed : Bool)
    (effect : Option (State → State)) : handled c f listed effect s =
      if listed then
        match effect with
        | none => s.frameRefused
        | some g => g s.dispatched
      else s.slotFreed := by
  unfold handled
  rw [if_pos (offers_of_canTake h)]
  cases listed <;> cases effect <;> rfl

/-- Settles O34: the handling by `handled_of_canTake`, the checks by `messageEffect_isSome`. -/
theorem ignoredAndRefusedFrames : Obligations.IgnoredAndRefusedFrames := by
  refine ⟨fun c f s => ⟨fun hr hnot => ?_, fun h ho => ?_⟩, fun f s hr => ⟨fun ho => ?_, fun ho => ?_,
    fun h ho => ?_⟩⟩
  · have hidle : handled c f (s.lists c f) (s.messageEffect c f) s = s :=
      if_neg (Bool.eq_false_iff.1 (offers_of_not_canTake hr hnot))
    by_cases hc : c = .answer ∧ s.isOtherStation f.dest = true
    · obtain ⟨rfl, hother⟩ := hc
      exact exec_next_of hr (if_pos hother)
    · rw [exec_messageCommand hr fun e => Bool.eq_false_iff.2 fun hother => hc ⟨e, hother⟩, hidle]
  · rw [exec_messageCommand h.1 ho, handled_of_canTake h]
    refine ⟨fun hl => ?_, fun hl => ?_⟩
    · rw [if_neg ((lists_iff s c f).not.2 hl)]
    · have hlists := (lists_iff s c f).2 hl
      rw [if_pos hlists]
      have hsome := messageEffect_isSome hl
      refine ⟨fun hbad => ?_, fun hok hhead => ?_⟩
      · cases he : s.messageEffect c f with
        | none => rfl
        | some g =>
          rw [he] at hsome
          obtain ⟨hok, hhead⟩ := hsome.1 rfl
          exact (hbad.elim (absurd hok) (absurd · hhead))
      · obtain ⟨g, hg⟩ := Option.isSome_iff_exists.1 (hsome.2 ⟨hok, hhead⟩)
        rw [hg]
        obtain ⟨hslots, hdispatch⟩ := messageEffect_slotsSame (u := s.dispatched) rfl hg hlists
        exact ⟨_, rfl, hdispatch, hslots⟩
  · exact exec_next_of hr (if_pos ho)
  · refine exec_next_of hr ?_
    rcases ho with ho | hnot
    · exact if_neg (Bool.eq_false_iff.1 ho)
    · simp only [effectOf]
      split_ifs
      · exact if_neg (Bool.eq_false_iff.1 (offers_of_not_canTake hr hnot))
      · rfl
  · have hexec : exec (.answerSnoop f) s =
        .next (handled .answer f true ((readAnswer f).map (suppress f.dest)) s) :=
      exec_next_of hr (if_pos ho)
    rw [hexec, handled_of_canTake h, if_pos rfl]
    have hsome := readAnswer_isSome (board := s.straps.board) f
    cases hm : readAnswer f with
    | none => exact ⟨fun _ => rfl, fun hok => absurd (hsome.2 hok) (by simp [hm])⟩
    | some m =>
      obtain ⟨hslots, hdispatch⟩ := (suppress_desk s.dispatched f.dest m).slotsSame
      exact ⟨fun hbad => absurd (hsome.1 (by simp [hm])) hbad, fun _ => ⟨_, rfl, hdispatch, hslots⟩⟩

end Sys2Proof.Machine
end

section
/-!
PROOFS. Bodies laid out as chapter 11 gives them, read back (R206, R208, R209).
-/
namespace Sys2Proof.Machine

/-! ### Fields as laid out (R206) -/

theorem toNat_bytes16 {n : Nat} (h : n ≤ 65535) :
    (BitVec.ofNat 8 (n / 256) ++ BitVec.ofNat 8 n : BitVec 16).toNat = n := by
  have hfield := count16_eq (bytes16 n) 0
  refine hfield.trans ?_
  show (BitVec.ofNat 8 n).toNat + 256 * (BitVec.ofNat 8 (n / 256)).toNat = n
  simp only [BitVec.toNat_ofNat]
  omega

theorem bytes16_append (w : BitVec 16) :
    (BitVec.ofNat 8 (w.toNat / 256) ++ BitVec.ofNat 8 w.toNat : BitVec 16) = w :=
  BitVec.eq_of_toNat_eq (toNat_bytes16 (Nat.le_of_lt_succ w.isLt))

theorem bytes24_append (c : Col) :
    (c.extractLsb' 16 8 ++ c.extractLsb' 8 8 ++ c.extractLsb' 0 8 : BitVec 24) = c := by
  refine BitVec.eq_of_getLsbD_eq fun i hi => ?_
  simp only [BitVec.getLsbD_append, BitVec.getLsbD_extractLsb']
  by_cases h1 : i < 8
  · simp [h1]
  · by_cases h2 : i - 8 < 8
    · simp [h1, h2, show 8 + (i - 8) = i by omega]
    · simp [h1, h2, show 16 + (i - 8 - 8) = i by omega, show i - 8 - 8 < 8 by omega]

theorem smallByte_toNat : ∀ u : Fin 4, terminalOf (smallByte u) = some u := by decide

theorem cellOf_ofNat : ∀ c : Fin 16, cellOf (BitVec.ofNat 8 c.val) = some c := by decide

theorem stateOf_code (st : TradingState) : stateOf st.code = some st := by cases st <;> rfl

theorem tickOf_code (k : Tick) : tickOf k.code = some k := by cases k <;> rfl

theorem attrOf_attrByte (a : Attr) : attrOf (attrByte a) = a := by cases a <;> rfl

/-- A field laid out in two bytes at i is read back from there. -/
theorem count16_of_bytes {b : List Byte} {i n : Nat} (hn : n ≤ 65535)
    (hlow : byteAt b i = BitVec.ofNat 8 n) (hhigh : byteAt b (i + 1) = BitVec.ofNat 8 (n / 256)) :
    count16 b i = n := by
  rw [count16, word16, hlow, hhigh]
  exact toNat_bytes16 hn

theorem word16_of_bytes {b : List Byte} {i : Nat} (w : BitVec 16)
    (hlow : byteAt b i = BitVec.ofNat 8 w.toNat) (hhigh : byteAt b (i + 1) = BitVec.ofNat 8 (w.toNat / 256)) :
    word16 b i = w := by
  rw [word16, hlow, hhigh]
  exact bytes16_append w

theorem word24_of_bytes {b : List Byte} {i : Nat} (c : Col) (h0 : byteAt b i = c.extractLsb' 0 8)
    (h1 : byteAt b (i + 1) = c.extractLsb' 8 8) (h2 : byteAt b (i + 2) = c.extractLsb' 16 8) :
    word24 b i = c := by
  rw [word24, h0, h1, h2]
  exact bytes24_append c

theorem priceValid_of_range {p : Nat} (h1 : 1 ≤ p) (h2 : p ≤ 32767) : priceValid p = true :=
  decide_eq_true ⟨h1, h2⟩

/-- A valid symbol laid out is not the clear value. -/
theorem not_isClear_of_symbolAt {b : List Byte} {i : Nat} {y : Symbol} (h : symbolAt b i = some y) :
    isClearAt b i = false := by
  refine Bool.eq_false_iff.2 fun hclear => ?_
  have h0 : byteAt b i = 0 := by simp [isClearAt] at hclear; exact hclear.1.1.1
  simp [symbolAt, symbolValid, h0, isLetterCode] at h

/-! ### An Answer's flags and fields (R165, R209) -/

theorem answerFlags_bits : ∀ a b c d : Bool,
    let flags : Byte := BitVec.ofNat 8 (presence a 0 + presence b 1 + presence c 2 + presence d 3)
    flags.getLsbD 0 = a ∧ flags.getLsbD 1 = b ∧ flags.getLsbD 2 = c ∧ flags.getLsbD 3 = d := by
  decide

theorem flaggedPrice_of_field {o : Option Nat} (h : ∀ p, o = some p → 1 ≤ p ∧ p ≤ 32767) :
    flaggedPrice o.isSome (o.getD 0) = some o := by
  cases o with
  | none => rfl
  | some p =>
    obtain ⟨h1, h2⟩ := h p rfl
    simp [flaggedPrice, priceValid_of_range h1 h2]

theorem flaggedLast_of_field {o : Option LastGroup}
    (h : ∀ l, o = some l → 1 ≤ l.price ∧ l.price ≤ 32767 ∧ 1 ≤ l.lots ∧ l.lots ≤ 65535) :
    flaggedLast o.isSome ((o.map LastGroup.price).getD 0) ((o.map LastGroup.lots).getD 0)
      ((o.map LastGroup.tick).getD .noTick).code = some o := by
  cases o with
  | none => rfl
  | some l =>
    obtain ⟨h1, h2, h3, -⟩ := h l rfl
    simp [flaggedLast, tickOf_code, priceValid_of_range h1 h2, lotsTaken, show l.lots ≠ 0 by omega]

theorem field_le {o : Option Nat} {n : Nat} (h : ∀ p, o = some p → p ≤ n) : o.getD 0 ≤ n := by
  cases o with
  | none => exact Nat.zero_le n
  | some p => exact h p rfl

theorem lastField_le {o : Option LastGroup} {g : LastGroup → Nat} {n : Nat} (h : ∀ l, o = some l → g l ≤ n) :
    (o.map g).getD 0 ≤ n := by
  cases o with
  | none => exact Nat.zero_le n
  | some l => exact h l rfl

/-! ### The messages -/

section Messages
variable (dest origin : Byte) {y : Symbol} (hy : symbolAt (symbolBytes y) 0 = some y)
include hy

theorem readAnswer_answerBody (u : Fin 4) (tag : Byte) {r : QuoteRecord} (hr : r.symbol = y)
    (href : ∀ p, r.reference = some p → 1 ≤ p ∧ p ≤ 32767)
    (hlast : ∀ l, r.last = some l → 1 ≤ l.price ∧ l.price ≤ 32767 ∧ 1 ≤ l.lots ∧ l.lots ≤ 65535)
    (hbid : ∀ p, r.bid = some p → 1 ≤ p ∧ p ≤ 32767) (hask : ∀ p, r.ask = some p → 1 ≤ p ∧ p ≤ 32767) :
    readAnswer ⟨dest, origin, answerBody u tag r⟩ =
      some ⟨u, tag, y, r.reference, r.last, r.bid, r.ask, r.state⟩ := by
  subst hr
  obtain ⟨h0, h1, h2, h3⟩ :=
    answerFlags_bits r.reference.isSome r.last.isSome r.bid.isSome r.ask.isSome
  have href16 : count16 (answerBody u tag r) 7 = r.reference.getD 0 :=
    count16_of_bytes (field_le fun p hp => (href p hp).2.trans (by decide)) rfl rfl
  have hprice16 : count16 (answerBody u tag r) 9 = (r.last.map LastGroup.price).getD 0 :=
    count16_of_bytes (lastField_le fun l hl => (hlast l hl).2.1.trans (by decide)) rfl rfl
  have hlots16 : count16 (answerBody u tag r) 12 = (r.last.map LastGroup.lots).getD 0 :=
    count16_of_bytes (lastField_le fun l hl => (hlast l hl).2.2.2) rfl rfl
  have hbid16 : count16 (answerBody u tag r) 14 = r.bid.getD 0 :=
    count16_of_bytes (field_le fun p hp => (hbid p hp).2.trans (by decide)) rfl rfl
  have hask16 : count16 (answerBody u tag r) 16 = r.ask.getD 0 :=
    count16_of_bytes (field_le fun p hp => (hask p hp).2.trans (by decide)) rfl rfl
  have hflags : byteAt (answerBody u tag r) 6 = answerFlags r := rfl
  have hterm : terminalOf (byteAt (answerBody u tag r) 0) = some u := smallByte_toNat u
  have hsym : symbolAt (answerBody u tag r) 2 = some r.symbol := hy
  have hstate : stateOf (byteAt (answerBody u tag r) 18) = some r.state := stateOf_code _
  have htick : byteAt (answerBody u tag r) 11 = ((r.last.map LastGroup.tick).getD .noTick).code := rfl
  simp only [readAnswer, hterm, hsym, hstate, hflags, href16, hprice16, hlots16, hbid16, hask16, htick]
  rw [show (answerFlags r).getLsbD 0 = _ from h0, show (answerFlags r).getLsbD 1 = _ from h1,
    show (answerFlags r).getLsbD 2 = _ from h2, show (answerFlags r).getLsbD 3 = _ from h3,
    flaggedPrice_of_field href, flaggedLast_of_field hlast, flaggedPrice_of_field hbid,
    flaggedPrice_of_field hask]
  rfl

end Messages

theorem handoffChar_of_bytes {b : List Byte} {j : Nat} (c : HandoffChar)
    (h : ∀ i : Fin 5, byteAt b (6 + 5 * j + i.val) = (handoffCharBytes c).getD i.val 0) :
    handoffChar b j = c := by
  have hentry : word24 b (6 + 5 * j) = c.entry := word24_of_bytes c.entry (h 0) (h 1) (h 2)
  have hglyph : byteAt b (9 + 5 * j) = c.glyph.setWidth 8 := by
    rw [show 9 + 5 * j = 6 + 5 * j + 3 by omega]
    exact h 3
  have hattr : byteAt b (10 + 5 * j) = attrByte c.attr := by
    rw [show 10 + 5 * j = 6 + 5 * j + 4 by omega]
    exact h 4
  rw [handoffChar, hentry, hglyph, hattr, attrOf_attrByte, BitVec.setWidth_setWidth_of_le _ (by decide),
    BitVec.setWidth_eq]

theorem handoffCharBytes_length (c : HandoffChar) : (handoffCharBytes c).length = 5 := rfl

theorem flatMap_handoffCharBytes_getD (chars : List HandoffChar) (j : Nat) (hj : j < chars.length) (i : Fin 5) :
    (chars.flatMap handoffCharBytes).getD (5 * j + i.val) 0 = (handoffCharBytes chars[j]).getD i.val 0 := by
  induction chars generalizing j with
  | nil => exact absurd hj (Nat.not_lt_zero j)
  | cons c cs ih =>
    rw [List.flatMap_cons]
    cases j with
    | zero =>
      rw [Nat.mul_zero, Nat.zero_add, List.getD_append _ _ _ _ (by rw [handoffCharBytes_length]; exact i.isLt)]
      rfl
    | succ j =>
      rw [List.getD_append_right _ _ _ _ (by rw [handoffCharBytes_length]; omega), handoffCharBytes_length,
        show 5 * (j + 1) + i.val - 5 = 5 * j + i.val by omega]
      exact ih j (Nat.lt_of_succ_lt_succ hj)

theorem flatMap_handoffCharBytes_length (chars : List HandoffChar) :
    (chars.flatMap handoffCharBytes).length = 5 * chars.length := by
  induction chars with
  | nil => rfl
  | cons c cs ih =>
    rw [List.flatMap_cons, List.length_append, ih, handoffCharBytes_length, List.length_cons]
    omega

theorem readHandoff_of_chars (dest origin : Byte) (offset : BitVec 16) (first : Col)
    {chars : List HandoffChar} (h1 : 1 ≤ chars.length) (h4 : chars.length ≤ 4) :
    readHandoff ⟨dest, origin, bytes16 offset.toNat ++ [BitVec.ofNat 8 chars.length] ++
      bytes24 first ++ chars.flatMap handoffCharBytes⟩ = some ⟨offset, first, chars⟩ := by
  generalize hbody : bytes16 offset.toNat ++ [BitVec.ofNat 8 chars.length] ++ bytes24 first ++
    chars.flatMap handoffCharBytes = body
  have hcount : (byteAt body 2).toNat = chars.length := by
    rw [← hbody]
    show (BitVec.ofNat 8 chars.length).toNat = chars.length
    rw [BitVec.toNat_ofNat]
    omega
  have hlength : body.length = 6 + 5 * chars.length := by
    rw [← hbody, List.length_append, flatMap_handoffCharBytes_length]
    rfl
  have hchar : ∀ j (hj : j < chars.length), handoffChar body j = chars[j] := by
    intro j hj
    refine handoffChar_of_bytes _ fun i => ?_
    rw [← flatMap_handoffCharBytes_getD chars j hj i, byteAt, ← hbody,
      List.getD_append_right _ _ _ _ (by show 6 ≤ _; omega)]
    show (chars.flatMap handoffCharBytes).getD (6 + 5 * j + i.val - 6) 0 = _
    rw [show 6 + 5 * j + i.val - 6 = 5 * j + i.val by omega]
  have hoffset : word16 body 0 = offset := by
    rw [← hbody]
    exact word16_of_bytes offset rfl rfl
  have hfirst : word24 body 3 = first := by
    rw [← hbody]
    exact word24_of_bytes first rfl rfl rfl
  have hall : (List.range chars.length).map (handoffChar body) = chars := by
    refine List.ext_getElem (by simp) fun j hj _ => ?_
    rw [List.getElem_map, List.getElem_range]
    exact hchar j (by simpa using hj)
  simp only [readHandoff, hcount, hlength, h1, h4, and_self, if_true, hoffset, hfirst, hall]

theorem readPlan_of_fields (dest origin : Byte) (cell : Fin 16) {a b c d : Byte} {ref : Nat}
    {y : Option Symbol} (href : ref ≤ 32767)
    (hy : planSymbol ([BitVec.ofNat 8 cell.val, a, b, c, d] ++ bytes16 ref) = some y) :
    readPlan true ⟨dest, origin, [BitVec.ofNat 8 cell.val, a, b, c, d] ++ bytes16 ref⟩ =
      some ⟨cell, y, if ref = 0 then none else some ref⟩ := by
  generalize hbody : [BitVec.ofNat 8 cell.val, a, b, c, d] ++ bytes16 ref = body at *
  have hcell : cellOf (byteAt body 0) = some cell := by rw [← hbody]; exact cellOf_ofNat cell
  have hcount : count16 body 5 = ref := by
    rw [← hbody]; exact count16_of_bytes (href.trans (by decide)) rfl rfl
  have hlength : body.length = 7 := by rw [← hbody]; rfl
  simp only [readPlan, hcell, hy, hlength, hcount, Config.priceMax, href, and_self, if_true, optionalPrice]

/-- Settles O33: the fields of each class, laid out and read. -/
theorem bodiesReadAsLaidOut : Obligations.BodiesReadAsLaidOut := by
  intro dest origin y serial mask tag u hy
  refine ⟨fun price lots kind k hp1 hp2 hl hk => ?_, fun bid ask hb ha => ?_, fun st => ?_,
    fun o price lots hp1 hp2 hl => ?_, fun cell ref href => ⟨?_, ?_, ?_⟩, ?_,
    fun r hr href hlast hbid hask => readAnswer_answerBody dest origin hy u tag hr href hlast hbid hask,
    fun offset first chars h1 h4 => readHandoff_of_chars dest origin offset first h1 h4,
    fun level steps hlevel => ?_, fun flags => rfl⟩
  · generalize hbody : bytes16 serial.toNat ++ [mask, k] ++ symbolBytes y ++ bytes16 price ++
      bytes16 lots = body
    have hprice : count16 body 8 = price := by
      rw [← hbody]; exact count16_of_bytes (hp2.trans (by decide)) rfl rfl
    have hlots : count16 body 10 = lots := by rw [← hbody]; exact count16_of_bytes hl rfl rfl
    have hserial : word16 body 0 = serial := by rw [← hbody]; exact word16_of_bytes serial rfl rfl
    have hkind : kindOf (byteAt body 3) = some kind := by rw [← hbody]; exact hk
    have hsym : symbolAt body 4 = some y := by rw [← hbody]; exact hy
    have hmask : byteAt body 2 = mask := by rw [← hbody]; rfl
    have hlength : body.length = 12 := by rw [← hbody]; rfl
    simp only [readPrint, hkind, hsym, hlength, hprice, hlots, hserial, hmask,
      priceValid_of_range hp1 hp2, and_self, if_true, lotsTaken]
  · generalize hbody : symbolBytes y ++ bytes16 bid ++ bytes16 ask = body
    have hbid : count16 body 4 = bid := by
      rw [← hbody]; exact count16_of_bytes (hb.trans (by decide)) rfl rfl
    have hask : count16 body 6 = ask := by
      rw [← hbody]; exact count16_of_bytes (ha.trans (by decide)) rfl rfl
    have hsym : symbolAt body 0 = some y := by rw [← hbody]; exact hy
    have hlength : body.length = 8 := by rw [← hbody]; rfl
    simp only [readQuote, hsym, hlength, hbid, hask, Config.priceMax, hb, ha, and_self, if_true,
      optionalPrice]
  · have hsym : symbolAt (symbolBytes y ++ [mask, st.code]) 0 = some y := hy
    have hstate : stateOf (byteAt (symbolBytes y ++ [mask, st.code]) 5) = some st := stateOf_code st
    simp only [readStatus, hsym, hstate]
    rfl
  · generalize hbody : [o] ++ bytes16 serial.toNat ++ [mask] ++ symbolBytes y ++ bytes16 price ++
      bytes16 lots = body
    have hprice : count16 body 8 = price := by
      rw [← hbody]; exact count16_of_bytes (hp2.trans (by decide)) rfl rfl
    have hlots : count16 body 10 = lots := by rw [← hbody]; exact count16_of_bytes hl rfl rfl
    have hserial : word16 body 1 = serial := by rw [← hbody]; exact word16_of_bytes serial rfl rfl
    have hsym : symbolAt body 4 = some y := by rw [← hbody]; exact hy
    have horigin : byteAt body 0 = o := by rw [← hbody]; rfl
    have hmask : byteAt body 3 = mask := by rw [← hbody]; rfl
    have hlength : body.length = 12 := by rw [← hbody]; rfl
    simp only [readCancel, hsym, hlength, hprice, hlots, hserial, horigin, hmask,
      priceValid_of_range hp1 hp2, and_self, if_true, lotsTaken]
  · refine readPlan_of_fields dest origin cell href ?_
    have hclear : isClearAt ([BitVec.ofNat 8 cell.val] ++ symbolBytes y ++ bytes16 ref) 1 = false :=
      not_isClear_of_symbolAt (show symbolAt _ 1 = some y from hy)
    exact (if_neg (Bool.eq_false_iff.1 hclear)).trans (congrArg (Option.map some) hy)
  · exact readPlan_of_fields dest origin cell href rfl
  · unfold readPlan
    split <;> simp
  · have hterm : terminalOf (byteAt ([smallByte u, tag] ++ symbolBytes y) 0) = some u := smallByte_toNat u
    have hsym : symbolAt ([smallByte u, tag] ++ symbolBytes y) 2 = some y := hy
    simp only [readAsk, hterm, hsym]
    rfl
  · generalize hbody : [smallByte u, BitVec.ofNat 8 level, BitVec.ofNat 8 level] ++ bytes24 steps = body
    have hterm : terminalOf (byteAt body 0) = some u := by rw [← hbody]; exact smallByte_toNat u
    have hsteps : word24 body 3 = steps := by rw [← hbody]; exact word24_of_bytes steps rfl rfl rfl
    have hlevel1 : (byteAt body 1).toNat = level := by
      rw [← hbody]
      show (BitVec.ofNat 8 level).toNat = level
      rw [BitVec.toNat_ofNat]
      omega
    have hlevel2 : byteAt body 2 = byteAt body 1 := by rw [← hbody]; rfl
    have hlength : body.length = 6 := by rw [← hbody]; rfl
    simp only [readPace, hterm, hlength, hlevel1, hlevel2, hlevel, hsteps, and_self, if_true]

end Sys2Proof.Machine
end

section
/-!
PROOFS. Typeahead (R139, R140): a taken key neither reads nor changes the keys that wait behind it, so that
the taking of the queue is the keys pressed in turn.
-/
namespace Sys2Proof.Machine

/-- s with the keys ks waiting at terminal u. -/
def State.withKeys (s : State) (u : Fin 4) (ks : List Key) : State :=
  s.onTerm u (fun m => { m with keyQueue := ks })

section Typeahead
variable (s : State) (u : Fin 4) (ks : List Key)

theorem term_withKeys : (s.withKeys u ks).term u = { s.term u with keyQueue := ks } :=
  State.term_onTerm_self _ _ _

@[simp] theorem withKeys_state : ((s.withKeys u ks).term u).state = (s.term u).state := by rw [term_withKeys]
@[simp] theorem withKeys_shown : ((s.withKeys u ks).term u).shown = (s.term u).shown := by rw [term_withKeys]
@[simp] theorem withKeys_entry : ((s.withKeys u ks).term u).entry = (s.term u).entry := by rw [term_withKeys]
@[simp] theorem withKeys_whole : ((s.withKeys u ks).term u).whole = (s.term u).whole := by rw [term_withKeys]
@[simp] theorem withKeys_alerts : ((s.withKeys u ks).term u).alerts = (s.term u).alerts := by
  rw [term_withKeys]
@[simp] theorem withKeys_watch : ((s.withKeys u ks).term u).watch = (s.term u).watch := by rw [term_withKeys]
@[simp] theorem withKeys_fracMark : ((s.withKeys u ks).term u).fracMark = (s.term u).fracMark := by
  rw [term_withKeys]
@[simp] theorem withKeys_eighths : ((s.withKeys u ks).term u).eighths = (s.term u).eighths := by
  rw [term_withKeys]
@[simp] theorem withKeys_keyQueue : ((s.withKeys u ks).term u).keyQueue = ks := by rw [term_withKeys]
@[simp] theorem withKeys_limitValue : ((s.withKeys u ks).term u).limitValue = (s.term u).limitValue := by
  rw [term_withKeys]
  rfl
@[simp] theorem withKeys_watches (y : Symbol) : ((s.withKeys u ks).term u).watches y = (s.term u).watches y := by
  rw [term_withKeys]
  rfl
@[simp] theorem withKeys_table : (s.withKeys u ks).table = s.table := rfl
@[simp] theorem withKeys_listenOnly : (s.withKeys u ks).listenOnly = s.listenOnly := rfl
@[simp] theorem withKeys_generalFull : (s.withKeys u ks).generalFull = s.generalFull := rfl
@[simp] theorem withKeys_active : (s.withKeys u ks).active = s.active := rfl

/-- A change of the terminal that leaves the waiting keys alone is made before or after them. -/
theorem onTerm_withKeys {f : Terminal → Terminal}
    (hf : ∀ m, f { m with keyQueue := ks } = { f m with keyQueue := ks } := by intro _; rfl) :
    (s.withKeys u ks).onTerm u f = (s.onTerm u f).withKeys u ks := by
  simp only [State.withKeys, State.onTerm_onTerm, hf]

/-- The same after a change of other blocks, which no waiting key meets. -/
theorem onTerm_of_withKeys {v : State} (w : State) {f : Terminal → Terminal} (hv : v = w.withKeys u ks)
    (hf : ∀ m, f { m with keyQueue := ks } = { f m with keyQueue := ks }) :
    v.onTerm u f = (w.onTerm u f).withKeys u ks := by
  rw [hv]
  exact onTerm_withKeys w u ks hf

theorem rejectBeep_withKeys : rejectBeep u (s.withKeys u ks) = (rejectBeep u s).withKeys u ks :=
  onTerm_withKeys s u ks

theorem addWatch_withKeys (e : WatchEntry) :
    addWatch u e (s.withKeys u ks) = (addWatch u e s).withKeys u ks :=
  onTerm_of_withKeys u ks (s.onRecord e.symbol QuoteRecord.addRef) rfl fun _ => rfl

theorem stopShowing_withKeys : stopShowing u (s.withKeys u ks) = (stopShowing u s).withKeys u ks := by
  unfold stopShowing
  rw [withKeys_shown]
  cases (s.term u).shown with
  | none => rfl
  | some y => exact onTerm_of_withKeys u ks (releaseRecord y s) rfl fun _ => rfl

theorem quoteEntry_withKeys (y : Symbol) :
    quoteEntry u y (s.withKeys u ks) = (quoteEntry u y s).withKeys u ks := by
  unfold quoteEntry showEntry openAsk
  rw [withKeys_table, withKeys_listenOnly, withKeys_generalFull]
  split_ifs
  · exact onTerm_of_withKeys u ks (beginShowing y s) rfl fun _ => rfl
  · exact onTerm_withKeys s u ks
  · exact onTerm_withKeys s u ks
  · exact onTerm_of_withKeys u ks ((s.withAskTag (s.askTag + 1)).appendGeneral 0
      (.ask u (s.askTag + 1) y)) rfl fun _ => rfl

theorem keyIdle_withKeys (k : Key) : keyIdle u k (s.withKeys u ks) = (keyIdle u k s).withKeys u ks := by
  cases k
  case letter =>
    simp only [keyIdle]
    exact onTerm_withKeys s u ks
  all_goals rfl

theorem keyKeying_withKeys (k : Key) : keyKeying u k (s.withKeys u ks) = (keyKeying u k s).withKeys u ks := by
  cases k
  case letter =>
    simp only [keyKeying, withKeys_entry]
    split_ifs
    · exact onTerm_withKeys s u ks
    · exact rejectBeep_withKeys s u ks
  case rub => exact onTerm_withKeys s u ks
  case clear =>
    simp only [keyKeying]
    exact onTerm_withKeys s u ks
  case quote =>
    simp only [keyKeying, withKeys_entry]
    exact quoteEntry_withKeys s u ks _
  all_goals exact rejectBeep_withKeys s u ks

theorem watchShown_withKeys (y : Symbol) :
    watchShown u y (s.withKeys u ks) = (watchShown u y s).withKeys u ks := by
  simp only [watchShown, withKeys_watches, withKeys_watch]
  split_ifs
  · exact rejectBeep_withKeys s u ks
  · exact rejectBeep_withKeys s u ks
  · exact addWatch_withKeys s u ks _

theorem unwatchShown_withKeys (y : Symbol) :
    unwatchShown u y (s.withKeys u ks) = (unwatchShown u y s).withKeys u ks := by
  simp only [unwatchShown, withKeys_watches]
  split_ifs
  · exact onTerm_of_withKeys u ks (releaseRecord y s) rfl fun _ => rfl
  · exact rejectBeep_withKeys s u ks

theorem nextShown_withKeys (y : Symbol) :
    nextShown u y (s.withKeys u ks) = (nextShown u y s).withKeys u ks := by
  simp only [nextShown, withKeys_watch]
  split
  · exact rejectBeep_withKeys s u ks
  · next target _ =>
    split_ifs
    · rfl
    · exact onTerm_of_withKeys u ks (beginShowing target (releaseRecord y s)) rfl fun _ => rfl

theorem keyShowing_withKeys (k : Key) (y : Symbol) :
    keyShowing u k y (s.withKeys u ks) = (keyShowing u k y s).withKeys u ks := by
  cases k
  case letter | clear =>
    simp only [keyShowing, stopShowing_withKeys]
    exact onTerm_withKeys _ u ks
  case quote => rfl
  case watch => exact watchShown_withKeys s u ks y
  case unwatch => exact unwatchShown_withKeys s u ks y
  case next => exact nextShown_withKeys s u ks y
  case limit =>
    simp only [keyShowing]
    exact onTerm_withKeys s u ks
  all_goals exact rejectBeep_withKeys s u ks

theorem commitLimit_withKeys (y : Symbol) (p : Nat) :
    commitLimit u y p (s.withKeys u ks) = (commitLimit u y p s).withKeys u ks := by
  simp only [commitLimit, withKeys_table, withKeys_watches, withKeys_watch]
  split
  · exact rejectBeep_withKeys s u ks
  · split_ifs
    · exact rejectBeep_withKeys s u ks
    · exact onTerm_withKeys s u ks
    · exact rejectBeep_withKeys s u ks
    · exact addWatch_withKeys s u ks _

theorem limitDigit_withKeys (d : Fin 10) :
    limitDigit u d (s.withKeys u ks) = (limitDigit u d s).withKeys u ks := by
  simp only [limitDigit, withKeys_eighths, withKeys_fracMark, withKeys_whole]
  split_ifs
  · exact rejectBeep_withKeys s u ks
  · exact onTerm_withKeys s u ks
  · exact rejectBeep_withKeys s u ks
  · exact onTerm_withKeys s u ks
  · exact rejectBeep_withKeys s u ks

theorem limitRub_withKeys : limitRub u (s.withKeys u ks) = (limitRub u s).withKeys u ks := by
  simp only [limitRub, withKeys_eighths, withKeys_fracMark, withKeys_whole]
  split_ifs
  · exact onTerm_withKeys s u ks
  · exact onTerm_withKeys s u ks
  · exact rejectBeep_withKeys s u ks
  · exact onTerm_withKeys s u ks

theorem keyLimitEntry_withKeys (k : Key) (y : Symbol) :
    keyLimitEntry u k y (s.withKeys u ks) = (keyLimitEntry u k y s).withKeys u ks := by
  cases k
  case digit d => exact limitDigit_withKeys s u ks d
  case fraction =>
    simp only [keyLimitEntry, withKeys_fracMark]
    split_ifs
    · exact rejectBeep_withKeys s u ks
    · exact onTerm_withKeys s u ks
  case rub => exact limitRub_withKeys s u ks
  case quote =>
    simp only [keyLimitEntry, limitQuote, withKeys_limitValue]
    split_ifs
    · rw [commitLimit_withKeys]
      exact onTerm_withKeys _ u ks
    · exact rejectBeep_withKeys s u ks
  case clear => exact onTerm_withKeys s u ks
  all_goals exact rejectBeep_withKeys s u ks

/-- R139: a key taken outside ASKING leaves the keys that wait behind it as they are. -/
theorem takeKey_withKeys (k : Key) (hst : (s.term u).state ≠ .asking) :
    takeKey u k (s.withKeys u ks) = (takeKey u k s).withKeys u ks := by
  have hhush : (s.withKeys u ks).onTerm u Terminal.hush = (s.onTerm u Terminal.hush).withKeys u ks :=
    onTerm_withKeys s u ks
  simp only [takeKey, hhush]
  have hst' : ((s.onTerm u Terminal.hush).term u).state ≠ .asking := by
    rw [State.term_onTerm_self]
    exact hst
  generalize s.onTerm u Terminal.hush = v at hst'
  simp only [keyOrAcknowledge, withKeys_alerts]
  split_ifs
  · exact onTerm_withKeys v u ks
  · unfold keyByState
    rw [withKeys_state, withKeys_shown]
    split
    · exact keyIdle_withKeys v u ks k
    · exact keyKeying_withKeys v u ks k
    · exact absurd ‹_› hst'
    · exact keyShowing_withKeys v u ks k _
    · exact keyLimitEntry_withKeys v u ks k _
    · rfl
    · rfl

theorem withKeys_withKeys (ks' : List Key) : (s.withKeys u ks).withKeys u ks' = s.withKeys u ks' :=
  State.onTerm_onTerm _ _ _ _

variable {s u ks}

theorem withKeys_of_keyQueue (h : (s.term u).keyQueue = ks) : s.withKeys u ks = s :=
  State.onTerm_of_eq _ _ (by rw [← h])

/-- R139: out of ASKING the first of the keys that wait is taken. -/
theorem drainKeys_withKeys (n : Nat) {k : Key} (hst : (s.term u).state ≠ .asking) :
    drainKeys u (n + 1) (s.withKeys u (k :: ks)) = drainKeys u n ((takeKey u k s).withKeys u ks) := by
  have hwith : (s.withKeys u (k :: ks)).onTerm u (fun m => { m with keyQueue := ks }) = s.withKeys u ks :=
    withKeys_withKeys s u _ ks
  rw [drainKeys, withKeys_state, withKeys_keyQueue, ← takeKey_withKeys s u ks k hst, ← hwith]
  cases hc : (s.term u).state
  case asking => exact absurd hc hst
  all_goals rfl

/-- R140: keys pressed in ASKING wait behind each other. -/
theorem foldl_offerKey_asking (ha : s.active u = true) (hst : (s.term u).state = .asking)
    (hq : (s.term u).keyQueue = []) (hc : ∀ k ∈ ks, k ≠ .clear) (h4 : ks.length ≤ 4) :
    ks.foldl (fun s k => offerKey u k s) s = s.withKeys u ks := by
  induction ks using List.reverseRecOn with
  | nil => exact (withKeys_of_keyQueue hq).symm
  | append_singleton ks k ih =>
    rw [List.length_append, List.length_singleton] at h4
    have hk : k ≠ .clear := hc k (by simp)
    have hfull : ¬Config.keyQueueSize ≤ ((s.withKeys u ks).term u).keyQueue.length := by
      rw [withKeys_keyQueue, Config.keyQueueSize]
      omega
    rw [List.foldl_append, ih (fun k hk => hc k (List.mem_append_left _ hk)) (Nat.le_of_succ_le h4)]
    show offerKey u k (s.withKeys u ks) = _
    rw [offerKey, withKeys_active, if_pos ha, if_neg hfull, withKeys_state, if_pos hst, if_neg hk]
    exact (State.onTerm_onTerm _ _ _ _)

/-- R139, R140: keys that wait at a terminal out of ASKING are taken as if pressed in turn. -/
theorem drainKeys_eq_foldl (n : Nat) (hr : s.resetAsserted = false) (ha : s.active u = true)
    (hq : (s.term u).keyQueue = []) (hn : ks.length ≤ n) (h4 : ks.length ≤ 4)
    (hc : ∀ k ∈ ks, k ≠ .clear) :
    drainKeys u n (s.withKeys u ks) = ks.foldl (fun s k => offerKey u k s) s := by
  induction n generalizing s ks with
  | zero =>
    obtain rfl : ks = [] := List.length_eq_zero_iff.1 (Nat.le_zero.1 hn)
    exact withKeys_of_keyQueue hq
  | succ n ih =>
    cases ks with
    | nil =>
      rw [withKeys_of_keyQueue hq]
      exact drainKeys_nil u _ hq
    | cons k ks =>
      by_cases hst : (s.term u).state = .asking
      · rw [foldl_offerKey_asking ha hst hq (fun k hk => hc k hk) h4]
        unfold drainKeys
        rw [withKeys_state, hst]
      · have htake := offerKey_of_takesKeys k ⟨hr, ha, hst, hq⟩
        rw [drainKeys_withKeys n hst, List.foldl_cons, htake]
        refine ih ?_ ?_ ?_ (Nat.le_of_succ_le_succ hn) (Nat.le_of_succ_le h4)
          fun k hk => hc k (List.mem_cons_of_mem _ hk)
        · exact (takeKey_footprint u s k).resetAsserted.trans hr
        · exact (active_of_straps (takeKey_footprint u s k).straps u).trans ha
        · exact takeKey_keyQueue_nil u k hq

end Typeahead

end Sys2Proof.Machine
end

section
/-!
PROOFS. Answers to this station (R39, R40, R147, R161, R162), and the typeahead taken after one (R140).
-/
namespace Sys2Proof.Machine

/-! ### The Answer at the table (R39, R40) -/

/-- R24, R39: a record after an Answer that a terminal shows. -/
def QuoteRecord.answered (m : AnswerMsg) (r : QuoteRecord) : QuoteRecord :=
  { r with reference := m.reference, bid := m.bid, ask := m.ask,
           last := if r.last.isSome then r.last else m.last, state := m.state, refs := r.refs + 1 }

theorem mergeAnswer_eq (m : AnswerMsg) (r : QuoteRecord) : r.mergeAnswer m =
    { r with reference := m.reference, bid := m.bid, ask := m.ask,
             last := if r.last.isSome then r.last else m.last } := by
  unfold QuoteRecord.mergeAnswer
  cases r.last <;> rfl

theorem filter_updateRecord (y : Symbol) {f : QuoteRecord → QuoteRecord} (table : List QuoteRecord)
    (hf : ∀ r, (f r).symbol = r.symbol) :
    (updateRecord y f table).filter (fun q => q.symbol != y) = table.filter (fun q => q.symbol != y) := by
  induction table with
  | nil => rfl
  | cons r rs ih =>
    rw [updateRecord, List.map_cons]
    by_cases hy : r.symbol = y
    · rw [if_pos hy, List.filter_cons_of_neg (by simp [hf, hy]), List.filter_cons_of_neg (by simp [hy])]
      exact ih
    · rw [if_neg hy, List.filter_cons_of_pos (by simpa using hy), List.filter_cons_of_pos (by simpa using hy)]
      exact congrArg (r :: ·) ih

/-- R39, R40: the table and the cells after an Answer, the record r held or installed for it. -/
theorem tableAnswer_of_found {m : AnswerMsg} {s : State} {r : QuoteRecord}
    (h : findRecord m.symbol (ensureHeld m.symbol s.table) = some r) : tableAnswer m s =
      (s.withTable (r.answered m ::
        (ensureHeld m.symbol s.table).filter (fun q => q.symbol != m.symbol))).withCells
        (if r.state = m.state then s.cells
        else s.cells.map (fun c => if r.pins.contains c.number then c.onState m.state else c)) := by
  generalize hE : ensureHeld m.symbol s.table = table at *
  have hmerge : ∀ q : QuoteRecord, (q.mergeAnswer m).symbol = q.symbol := fun _ => rfl
  have hfound : findRecord m.symbol (updateRecord m.symbol (QuoteRecord.mergeAnswer m) table) =
      some (r.mergeAnswer m) := by rw [findRecord_updateRecord_self _ hmerge, h]; rfl
  unfold tableAnswer
  rw [hE]
  by_cases hst : r.state = m.state
  · rw [setRecordState_of_same (r := r.mergeAnswer m) hfound hst, if_pos hst,
      beginShowing_table (r := r.mergeAnswer m) hfound]
    have hrecord : ({ r.mergeAnswer m with refs := (r.mergeAnswer m).refs + 1 } : QuoteRecord) =
        r.answered m := by
      rw [mergeAnswer_eq]
      simp only [QuoteRecord.answered, ← hst]
    rw [hrecord]
    exact congrArg (fun rest => s.withTable (r.answered m :: rest)) (filter_updateRecord _ _ hmerge)
  · rw [setRecordState_of_change (r := r.mergeAnswer m) hfound hst, if_neg hst,
      beginShowing_table (r := { r.mergeAnswer m with state := m.state })]
    · have hrecord : ({ ({ r.mergeAnswer m with state := m.state } : QuoteRecord) with
          refs := (r.mergeAnswer m).refs + 1 } : QuoteRecord) = r.answered m := by
        rw [mergeAnswer_eq]
        rfl
      rw [hrecord]
      exact congrArg (fun rest => (s.withTable (r.answered m :: rest)).withCells _)
        ((filter_updateRecord (f := fun q => { q with state := m.state }) _ _ fun _ => rfl).trans
          (filter_updateRecord _ _ hmerge))
    · exact (findRecord_updateRecord_self (f := fun q => { q with state := m.state }) _ fun _ => rfl).trans
        (congrArg (Option.map _) hfound)

/-- R21: the records that stood before an installation. -/
theorem filter_install {y : Symbol} {table : List QuoteRecord} (h : findRecord y table = none) :
    (install y table).filter (fun q => q.symbol != y) =
      if table.length < 64 then table else evict table := by
  have habsent := findRecord_none.1 h
  rw [install, List.filter_cons_of_neg (by simp [QuoteRecord.fresh])]
  refine List.filter_eq_self.2 fun q hq => ?_
  have hmem : q ∈ table := by
    split_ifs at hq
    · exact hq
    · exact (evict_sublist table).subset hq
  simpa using habsent q hmem

/-! ### The Answer at its terminal (R147, R161, R162) -/

/-- R39, R147, R162: s after a matching Answer, its keys still waiting. -/
def State.answeredBy (s : State) (m : AnswerMsg) : State :=
  (tableAnswer m (endAsk m.terminal s)).onTerm m.terminal (Terminal.showAnswer m.symbol)

theorem takeAnswer_of_match {m : AnswerMsg} {s : State} (h : answerMatches m s = true) :
    takeAnswer m s = drainKeys m.terminal 4 (s.answeredBy m) := if_pos h

theorem answerMatches_iff (m : AnswerMsg) (s : State) : answerMatches m s = true ↔
    s.active m.terminal = true ∧ (s.term m.terminal).state = .asking ∧
      ∃ a, (s.term m.terminal).ask = some a ∧ a.tag = m.tag ∧ a.symbol = m.symbol := by
  unfold answerMatches
  cases (s.term m.terminal).ask <;> simp [and_assoc]

/-- R162: the end of an outstanding ask. -/
theorem endAsk_of_ask {u : Fin 4} {s : State} {a : Ask} (ha : (s.term u).ask = some a) : endAsk u s =
    (s.withdraw (TxFrame.isAskOf u a.tag)).setTerm u { s.term u with ask := none } := by
  simp only [endAsk, ha]
  rfl

theorem exists_ensureHeld (y : Symbol) (table : List QuoteRecord) :
    ∃ r, findRecord y (ensureHeld y table) = some r :=
  Option.isSome_iff_exists.1 (findRecord_ensureHeld y table)

/-- R39, R147, R162: a matching Answer at the table, the cells, the line and its terminal. -/
theorem answeredBy_eq {m : AnswerMsg} {s : State} {a : Ask} {r : QuoteRecord}
    (ha : (s.term m.terminal).ask = some a)
    (hr : findRecord m.symbol (ensureHeld m.symbol s.table) = some r) : s.answeredBy m =
      { s with
        table := r.answered m :: (ensureHeld m.symbol s.table).filter (fun q => q.symbol != m.symbol)
        cells := if r.state = m.state then s.cells
          else s.cells.map (fun c => if r.pins.contains c.number then c.onState m.state else c)
        line := (s.withdraw (TxFrame.isAskOf m.terminal a.tag)).line
        terminals := s.terminals.set m.terminal { s.term m.terminal with
          ask := none, message := none, messageTimer := 0, shown := some m.symbol, entry := [],
          state := .showing } } := by
  rw [State.answeredBy, endAsk_of_ask ha, tableAnswer_of_found (r := r)
    (s := (s.withdraw (TxFrame.isAskOf m.terminal a.tag)).setTerm m.terminal
      { s.term m.terminal with ask := none }) hr]
  exact onTerm_of_terminals (s := s) (m := { s.term m.terminal with ask := none }) _ rfl

/-- R140: the keys that wait meet nothing of the Answer. -/
theorem answeredBy_withKeys {m : AnswerMsg} {s : State} {a : Ask} (ha : (s.term m.terminal).ask = some a)
    (ks : List Key) : (s.withKeys m.terminal ks).answeredBy m =
      (s.answeredBy m).withKeys m.terminal ks := by
  obtain ⟨r, hr⟩ := exists_ensureHeld m.symbol s.table
  have hask : ((s.withKeys m.terminal ks).term m.terminal).ask = some a := by rw [term_withKeys]; exact ha
  rw [answeredBy_eq (s := s.withKeys m.terminal ks) hask hr, answeredBy_eq ha hr, term_withKeys]
  simp only [State.withKeys, State.onTerm, State.setTerm, State.withTerminals_terminals, Quad.set_set,
    State.term, Quad.get_set_self]
  rfl

theorem exec_answer {f : Frame} {m : AnswerMsg} {s : State} (h : s.canTake .answer f)
    (hown : s.isOwnNumber f.dest = true) (hm : readAnswer f = some m) :
    exec (.answer f) s = .next (takeAnswer m s.dispatched) := by
  have hother : s.isOtherStation f.dest = false := by simp [State.isOtherStation, hown]
  exact exec_next_of h.1 ((if_neg (Bool.eq_false_iff.1 hother)).trans (handled_map_of_taken h hown hm))

/-- R147, R162: a matching Answer with no keys waiting. -/
theorem takeAnswer_of_no_keys {m : AnswerMsg} {s : State} (h : answerMatches m s = true)
    (hq : (s.term m.terminal).keyQueue = []) : takeAnswer m s = s.answeredBy m := by
  obtain ⟨-, -, a, ha, -, -⟩ := (answerMatches_iff m s).1 h
  obtain ⟨r, hr⟩ := exists_ensureHeld m.symbol s.table
  rw [takeAnswer_of_match h]
  refine drainKeys_nil _ _ ?_
  rw [answeredBy_eq ha hr]
  exact (congrArg Terminal.keyQueue (Quad.get_set_self _ _ _)).trans hq

/-- R140: the keys that wait are put aside for the Answer. -/
theorem answeredBy_split {m : AnswerMsg} {s : State} (h : answerMatches m s = true) : s.answeredBy m =
    ((s.withKeys m.terminal []).answeredBy m).withKeys m.terminal (s.term m.terminal).keyQueue := by
  obtain ⟨-, -, a, ha, -, -⟩ := (answerMatches_iff m s).1 h
  rw [answeredBy_withKeys ha, withKeys_withKeys, ← answeredBy_withKeys ha, withKeys_of_keyQueue rfl]

theorem answeredBy_keyQueue {m : AnswerMsg} {s : State} (h : answerMatches m s = true) :
    (((s.withKeys m.terminal []).answeredBy m).term m.terminal).keyQueue = [] := by
  obtain ⟨-, -, a, ha, -, -⟩ := (answerMatches_iff m s).1 h
  rw [answeredBy_withKeys ha]
  exact withKeys_keyQueue _ _ _

/-- R140: with keys waiting, they are pressed in turn after the Answer. -/
theorem takeAnswer_of_keys {m : AnswerMsg} {s : State} {ks : List Key} (h : answerMatches m s = true)
    (hr : s.resetAsserted = false) (hq : (s.term m.terminal).keyQueue = ks) (h4 : ks.length ≤ 4)
    (hc : ∀ k ∈ ks, k ≠ .clear) : takeAnswer m s = ks.foldl (fun s k => offerKey m.terminal k s)
      ((s.withKeys m.terminal []).answeredBy m) := by
  obtain ⟨hactive, -, a, ha, -, -⟩ := (answerMatches_iff m s).1 h
  obtain ⟨r, hfound⟩ := exists_ensureHeld m.symbol s.table
  have heq : s.answeredBy m = _ := answeredBy_eq ha hfound
  rw [takeAnswer_of_match h, answeredBy_split h, hq]
  refine drainKeys_eq_foldl 4 ?_ ?_ (answeredBy_keyQueue h) h4 h4 hc
  · rw [answeredBy_withKeys ha, heq]
    exact hr
  · rw [answeredBy_withKeys ha, heq]
    exact hactive

/-- Settles O43: a stale Answer by `answerMatches_iff`, a matching one by `answeredBy_eq`, the typeahead by
`takeAnswer_of_keys`. -/
theorem answerCompletesAsk : Obligations.AnswerCompletesAsk := by
  intro f m s h hown hm
  refine ⟨fun hstale => ?_, fun a hactive hst ha htag hsym => ⟨fun hq => ?_, fun ks hq h4 hc => ?_⟩⟩
  · rw [exec_answer h hown hm, takeAnswer, if_neg]
    · rfl
    · rw [answerMatches_iff]
      rintro ⟨hactive, hst, a, ha, hsame⟩
      rcases hstale with hoff | hnot | hother
      · exact Bool.eq_false_iff.1 hoff hactive
      · exact hnot hst
      · exact hother a ha hsame
  · have hmatch : answerMatches m s.dispatched = true :=
      (answerMatches_iff m s.dispatched).2 ⟨hactive, hst, a, ha, htag, hsym⟩
    obtain ⟨r, hr⟩ := exists_ensureHeld m.symbol s.table
    have hexec := exec_answer h hown hm
    rw [takeAnswer_of_no_keys hmatch hq, answeredBy_eq (s := s.dispatched) ha hr] at hexec
    refine ⟨_, r.answered m, hexec, rfl, (findRecord_some hr).2, rfl, rfl, rfl, rfl, fun q hheld => ?_,
      fun habsent => ?_, rfl, h.1, rfl, rfl, rfl, rfl, rfl, rfl, rfl, rfl, rfl⟩
    · have hE : ensureHeld m.symbol s.table = s.table := ensureHeld_of_held hheld
      obtain rfl : q = r := Option.some_inj.1 (hheld.symm.trans (hE ▸ hr))
      refine ⟨congrArg (fun table => q.answered m :: table.filter (fun z => z.symbol != m.symbol)) hE, rfl,
        rfl, rfl, rfl, rfl, rfl, rfl, fun hs => if_pos hs, fun hs => (if_neg hs).trans ?_⟩
      refine List.map_congr_left fun c _ => ?_
      rw [onState_eq]
    · have hE : ensureHeld m.symbol s.table = install m.symbol s.table := ensureHeld_of_absent habsent
      obtain rfl : QuoteRecord.fresh m.symbol = r := by
        rw [hE] at hr
        exact Option.some_inj.1 (Eq.trans (by simp [install, findRecord, QuoteRecord.fresh]) hr)
      refine ⟨?_, rfl, rfl, rfl, rfl, rfl, rfl, rfl, ?_⟩
      · exact congrArg ((QuoteRecord.fresh m.symbol).answered m :: ·) (hE ▸ filter_install habsent)
      · show (if _ then s.cells else s.cells.map fun c => c) = s.cells
        rw [List.map_id', ite_self]
  · have hmatch : answerMatches m s.dispatched = true :=
      (answerMatches_iff m s.dispatched).2 ⟨hactive, hst, a, ha, htag, hsym⟩
    obtain ⟨r, hr⟩ := exists_ensureHeld m.symbol s.table
    have hterm : (s.dispatched.withKeys m.terminal []).term m.terminal = _ := term_withKeys _ _ _
    have hmatch' : answerMatches m (s.dispatched.withKeys m.terminal []) = true := by
      rw [answerMatches_iff, hterm]
      exact ⟨hactive, hst, a, ha, htag, hsym⟩
    have hempty : exec (.answer f) (s.setTerm m.terminal { s.term m.terminal with keyQueue := [] }) =
        .next ((s.dispatched.withKeys m.terminal []).answeredBy m) :=
      (exec_answer (s := s.withKeys m.terminal []) h hown hm).trans
        (congrArg _ (takeAnswer_of_no_keys hmatch' (withKeys_keyQueue _ _ _)))
    have hrun : ((s.dispatched.withKeys m.terminal []).answeredBy m).resetAsserted = false := by
      rw [answeredBy_eq (s := s.dispatched.withKeys m.terminal []) (a := a) (by rw [hterm]; exact ha) hr]
      exact h.1
    rw [exec_answer h hown hm, takeAnswer_of_keys hmatch h.1 hq h4 hc, hempty, thenRun,
      keysInTurn_eq _ _ hrun]

end Sys2Proof.Machine
end

section
/-!
PROOFS. The invariants of the desk: of the quote table, the cells' links and the terminals. What every
command does to them comes to a few operations, and a property that each keeps is kept by every step.
-/
namespace Sys2Proof.Machine

/-! ### What the operations leave alone -/

/-- s and t have the same table, cells, terminals and straps. -/
def deskSame (s t : State) : Prop :=
  t.table = s.table ∧ t.cells = s.cells ∧ t.terminals = s.terminals ∧ t.straps = s.straps

/-- What ties a record to the cells and the terminals. -/
def QuoteRecord.ties (r : QuoteRecord) : Symbol × List (Fin 16) × Nat := (r.symbol, r.pins, r.refs)

/-- What ties a cell to the table. -/
def CellRecord.ties (c : CellRecord) : Fin 16 × Option Symbol := (c.number, c.link)

/-- x is terminal m but for its matrix, its message, its beeper and its display. -/
def Terminal.sameFace (m x : Terminal) : Prop :=
  x = { m with debounce := x.debounce, ghostLock := x.ghostLock, message := x.message,
               messageTimer := x.messageTimer, beeper := x.beeper, beeperOn := x.beeperOn,
               display := x.display }

theorem Terminal.sameFace.refl (m : Terminal) : m.sameFace m := rfl

/-- A property of the desk that each of its operations keeps. -/
structure DeskInvariant (P : State → Prop) : Prop where
  congr : ∀ {s t}, deskSame s t → P s → P t
  records : ∀ {s} table, table.map QuoteRecord.ties = s.table.map QuoteRecord.ties → P s →
    P (s.withTable table)
  cells : ∀ {s} cells, cells.map CellRecord.ties = s.cells.map CellRecord.ties → P s → P (s.withCells cells)
  faces : ∀ {s} q, (∀ u, (s.term u).sameFace (q.get u)) → P s → P (s.withTerminals q)
  key : ∀ {s} u k, s.resetAsserted = false → P s → P (offerKey u k s)
  timeout : ∀ {s} u, P s → P (timeoutAsk u s)
  fire : ∀ {s} y p u, P s → P (fireAt y p u s)
  plan : ∀ {s} m, P s → P (tablePlan m s)
  answer : ∀ {s} m, s.resetAsserted = false → P s → P (takeAnswer m s)
  restart : ∀ {s}, P s → P (dayStart s)
  release : ∀ pins s, P (powerOnReset pins s)

section Same
variable {s t u : State}

theorem deskSame.refl (s : State) : deskSame s s := ⟨rfl, rfl, rfl, rfl⟩

theorem TapeFootprint.deskSame (h : TapeFootprint s t) : deskSame s t :=
  ⟨h.table, h.cells, h.terminals, h.straps⟩

theorem LineFootprint.deskSame (h : LineFootprint s t) : deskSame s t :=
  ⟨h.table, h.cells, h.terminals, h.straps⟩

theorem takeAsk_deskSame (s : State) (origin : Byte) (m : AskMsg) : deskSame s (takeAsk origin m s) := by
  unfold takeAsk
  split_ifs <;> exact ⟨rfl, rfl, rfl, rfl⟩

theorem takeTallyQuery_deskSame (s : State) (origin : Byte) (clear : Bool) :
    deskSame s (takeTallyQuery origin clear s) := by
  unfold takeTallyQuery
  split_ifs <;> exact ⟨rfl, rfl, rfl, rfl⟩

end Same

namespace DeskInvariant
variable {P : State → Prop} (hP : DeskInvariant P) {s : State}
include hP

/-! ### The parts of a message -/

theorem onRecord {y : Symbol} {f : QuoteRecord → QuoteRecord} (hf : ∀ r, (f r).ties = r.ties) (h : P s) :
    P (s.onRecord y f) := by
  refine hP.records _ ?_ h
  rw [updateRecord, List.map_map]
  refine List.map_congr_left fun r _ => ?_
  show (if r.symbol = y then f r else r).ties = r.ties
  split_ifs
  · exact hf r
  · rfl

theorem onCells {ns : List (Fin 16)} {f : CellRecord → CellRecord} (hf : ∀ c, (f c).ties = c.ties) (h : P s) :
    P (s.onCells ns f) := by
  refine hP.cells _ ?_ h
  rw [List.map_map]
  refine List.map_congr_left fun c _ => ?_
  show (if ns.contains c.number then f c else c).ties = c.ties
  split_ifs
  · exact hf c
  · rfl

theorem onFace {u : Fin 4} {f : Terminal → Terminal} (hf : ∀ m : Terminal, m.sameFace (f m)) (h : P s) :
    P (s.onTerm u f) := by
  refine hP.faces _ (fun v => ?_) h
  by_cases hv : v = u
  · subst hv
    rw [Quad.get_set_self]
    exact hf _
  · rw [Quad.get_set_of_ne _ _ hv]
    exact .refl _

theorem setRecordState (y : Symbol) (st : TradingState) (h : P s) : P (setRecordState y st s) := by
  cases hr : findRecord y s.table with
  | none => rwa [setRecordState_of_absent hr]
  | some r =>
    by_cases hst : r.state = st
    · rwa [setRecordState_of_same hr hst]
    · rw [setRecordState_of_change hr hst]
      exact hP.onCells (fun c => by rw [onState_eq]; rfl) (hP.onRecord (fun _ => rfl) h)

theorem tablePrint (m : PrintMsg) (h : P s) : P (tablePrint m s) := by
  cases hr : findRecord m.symbol s.table with
  | none => rwa [tablePrint_of_ignored (.inr hr)]
  | some r =>
    by_cases hk : m.kind = .late
    · rwa [tablePrint_of_ignored (.inl hk)]
    · rw [tablePrint_of_held hk hr]
      refine hP.onCells (fun c => ?_) (hP.onRecord (fun _ => rfl) h)
      rw [afterPrint_eq]
      split_ifs <;> rfl

theorem firePrint (m : PrintMsg) (h : P s) : P (firePrint m s) := by
  unfold Machine.firePrint
  split
  · exact h
  · split_ifs
    · exact h
    · exact hP.fire _ _ _ (hP.fire _ _ _ (hP.fire _ _ _ (hP.fire _ _ _ h)))

theorem applyPrint (m : PrintMsg) (h : P s) : P (applyPrint m s) :=
  hP.congr (composerPrint_tape _ m).deskSame (hP.firePrint m (hP.tablePrint m h))

theorem applyStatus (m : StatusMsg) (h : P s) : P (applyStatus m s) :=
  hP.congr (composerStatus_tape _ m).deskSame (hP.setRecordState _ _ h)

theorem applyCancel (m : CancelMsg) (h : P s) : P (applyCancel m s) := by
  refine hP.congr (composerCancel_tape _ m).deskSame (hP.onRecord (fun r => ?_) h)
  rw [afterCancel_eq]
  split_ifs <;> rfl

/-! ### The frame handler -/

theorem handled {c : MsgClass} {f : Frame} {listed : Bool} {effect : Option (State → State)} (h : P s)
    (heffect : ∀ g, effect = some g → P s.dispatched → P (g s.dispatched)) :
    P (handled c f listed effect s) :=
  handled_keeps h (hP.congr (s := s) (t := freeSlot s) ⟨rfl, rfl, rfl, rfl⟩ h)
    (hP.congr (s := s) (t := freeSlot (s.count .framesDiscarded)) ⟨rfl, rfl, rfl, rfl⟩ h)
    fun g hg _ _ => heffect g hg (hP.congr (s := s) (t := s.dispatched) ⟨rfl, rfl, rfl, rfl⟩ h)

theorem handled_map {α : Type} {c : MsgClass} {f : Frame} {listed : Bool} {o : Option α}
    {effect : α → State → State} (h : P s) (heffect : ∀ a, P s.dispatched → P (effect a s.dispatched)) :
    P (Machine.handled c f listed (o.map effect) s) := by
  refine hP.handled h fun g hg => ?_
  obtain ⟨a, -, rfl⟩ := Option.map_eq_some_iff.1 hg
  exact heffect a

/-! ### The ticks and the scans -/

theorem timeoutAsks (h : P s) : P (timeoutAsks s) :=
  hP.timeout _ (hP.timeout _ (hP.timeout _ (hP.timeout _ h)))

theorem floorTick (h : P s) : P (floorTick s) := by
  rw [floorTick_parts, lineSilenceTick_eq]
  refine hP.congr (s := Machine.timeoutAsks _) ⟨rfl, rfl, rfl, rfl⟩ (hP.timeoutAsks ?_)
  have hrecords : P (s.withTable (s.table.map QuoteRecord.tick)) := by
    refine hP.records _ ?_ h
    rw [List.map_map]
    exact List.map_congr_left fun r _ => by rw [Function.comp, r.tick_eq]; rfl
  have hcells : P ((s.withTable (s.table.map QuoteRecord.tick)).withCells (s.cells.map CellRecord.shift)) := by
    refine hP.cells _ ?_ hrecords
    rw [List.map_map]
    refine List.map_congr_left fun c _ => ?_
    rw [Function.comp, c.shift_eq]
    split_ifs <;> rfl
  refine hP.congr (s := ((s.withTable (s.table.map QuoteRecord.tick)).withCells
    (s.cells.map CellRecord.shift)).withTerminals (s.terminals.map Terminal.tick)) ⟨rfl, rfl, rfl, rfl⟩
    (hP.faces _ (fun u => ?_) hcells)
  rw [Quad.get_map, Terminal.tick_eq]
  rfl

theorem scanTerminal (u : Fin 4) (raw : BitVec 48) (hr : s.resetAsserted = false) (h : P s) :
    P (scanTerminal u raw s) := by
  have hkeys : ∀ (ks : List Key) (v : State), v.resetAsserted = false → P v →
      P (ks.foldl (fun s k => offerKey u k s) v) := by
    intro ks
    induction ks with
    | nil => exact fun _ _ hv => hv
    | cons k ks ih => exact fun v hvr hv => ih _ ((offerKey_scan u v k).resetAsserted.trans hvr) (hP.key u k hvr hv)
  rw [scanTerminal_eq]
  split_ifs
  · exact hkeys _ _ hr (hP.onFace (u := u) (f := fun m => { m with
      ghostLock := lockAtScan raw m, debounce := debouncesAtScan raw m }) (fun _ => rfl) h)
  · exact h

theorem debouncePosition (u : Fin 4) (pos : Nat) (hr : s.resetAsserted = false) (h : P s) :
    P (debouncePosition u pos s) := by
  have hflip : P (s.onTerm u (fun m => { m with debounce := flipPosition pos m.debounce })) :=
    hP.onFace (fun _ => rfl) h
  unfold Machine.debouncePosition
  split_ifs
  · exact hflip
  · unfold offerCode
    split
    · exact hP.key _ _ hr hflip
    · exact hflip
  · exact h

theorem scanKeys (r0 r1 r2 r3 : BitVec 48) (hr : s.resetAsserted = false) (h : P s) :
    P (scanKeys r0 r1 r2 r3 s) := by
  unfold Machine.scanKeys
  have hr1 := (scanTerminal_scan 0 s r0).resetAsserted.trans hr
  have h1 := hP.scanTerminal 0 r0 hr h
  generalize Machine.scanTerminal 0 r0 s = s1 at *
  have hr2 := (scanTerminal_scan 1 s1 r1).resetAsserted.trans hr1
  have h2 := hP.scanTerminal 1 r1 hr1 h1
  generalize Machine.scanTerminal 1 r1 s1 = s2 at *
  have hr3 := (scanTerminal_scan 2 s2 r2).resetAsserted.trans hr2
  exact hP.scanTerminal 3 r3 hr3 (hP.scanTerminal 2 r2 hr2 h2)

theorem refreshFrame (r0 r1 r2 r3 : BitVec 48) (hr : s.resetAsserted = false) (h : P s) :
    P (refreshFrame r0 r1 r2 r3 s) := by
  have hlatch : P (latchFrame s) := hP.congr (s := s) ⟨rfl, rfl, rfl, rfl⟩ h
  have hdisplays : P (composeDisplays (latchFrame s)) := by
    rw [composeDisplays_eq]
    refine hP.faces _ (fun u => ?_) hlatch
    rw [quad_of_get (latchFrame s).displayed]
    unfold State.displayed
    split_ifs <;> rfl
  have hr0 : (composeDisplays (latchFrame s)).resetAsserted = false :=
    (composeDisplays_desk _).resetAsserted.trans hr
  exact hP.scanKeys r0 r1 r2 r3 hr0 hdisplays

/-! ### The commands -/

theorem effectOf (c : Instr) (hr : s.resetAsserted = false) (h : P s) : P (effectOf c s) := by
  cases c with
  | resetAssert | powerOnReset => exact h
  | floorTick => exact hP.floorTick h
  | refreshFrame r0 r1 r2 r3 => exact hP.refreshFrame r0 r1 r2 r3 hr h
  | patternEnd cell =>
    refine hP.onCells (fun c => ?_) h
    unfold CellRecord.endIfDue CellRecord.patternEnd
    split_ifs <;> rfl
  | debounceChange t pos => exact hP.debouncePosition t _ hr h
  | letterKey | digitKey | quoteKey | clearKey | rubKey | watchKey | unwatchKey | nextKey
  | limitKey | fractionKey => exact hP.key _ _ hr h
  | beeperExpiry t =>
    refine hP.onFace (fun m => ?_) h
    unfold Terminal.beeperExpiry
    split_ifs <;> rfl
  | messageExpiry t =>
    refine hP.onFace (fun m => ?_) h
    unfold Terminal.messageExpiry
    split_ifs <;> rfl
  | warmUpPhase => exact hP.congr (s := s) ⟨rfl, rfl, rfl, rfl⟩ h
  | lineSilenceTimeout =>
    rw [Machine.effectOf, lightAtLimit_eq]
    exact hP.congr (s := s) ⟨rfl, rfl, rfl, rfl⟩ h
  | crawlStep => exact hP.congr (crawlStep_tape s).deskSame h
  | pendingPaceQueued => exact hP.congr (meetPendingPace_tape s).deskSame h
  | print f => exact hP.handled_map h fun m hd => hP.applyPrint m hd
  | quote f => exact hP.handled_map h fun m hd => hP.onRecord (fun _ => rfl) hd
  | status f => exact hP.handled_map h fun m hd => hP.applyStatus m hd
  | cancel f => exact hP.handled_map h fun m hd => hP.applyCancel m hd
  | plan f => exact hP.handled_map h fun m hd => hP.plan m hd
  | dayStart f => exact hP.handled_map h fun _ hd => hP.restart hd
  | ask f => exact hP.handled_map h fun m hd => hP.congr (takeAsk_deskSame _ _ m) hd
  | answer f =>
    simp only [Machine.effectOf]
    split_ifs
    · exact h
    · exact hP.handled_map h fun m hd => hP.answer m hr hd
  | answerSnoop f =>
    simp only [Machine.effectOf]
    split_ifs
    · exact hP.handled_map h fun m hd => hP.congr (s := s.dispatched) ⟨rfl, rfl, rfl, rfl⟩ hd
    · exact h
  | handoff f =>
    refine hP.handled h fun g hg hd => ?_
    unfold handoffEffect at hg
    split at hg
    · split_ifs at hg
      cases hg
      exact hP.congr (takeHandoff_tape _ _).deskSame hd
    · cases hg
  | pace f => exact hP.handled_map h fun m hd => hP.congr (crawlPace_tape _ m).deskSame hd
  | tallyQuery f => exact hP.handled_map h fun m hd => hP.congr (takeTallyQuery_deskSame _ _ _) hd
  | tally f => exact hP.handled (effect := none) h fun _ hg => nomatch hg
  | printTake => exact hP.congr (printTake_tape s).deskSame h
  | cancelTake => exact hP.congr (cancelTake_tape s).deskSame h
  | statusTake => exact hP.congr (statusTake_tape s).deskSame h
  | idleTimerExpiry =>
    simp only [Machine.effectOf]
    split_ifs
    · exact hP.congr (s := s) ⟨rfl, rfl, rfl, rfl⟩ h
    · exact h
  | idleDecay => exact hP.congr (idleDecay_tape s).deskSame h
  | silenceCoasting | silenceWaiting => exact hP.congr (s := s) ⟨rfl, rfl, rfl, rfl⟩ h
  | askTimeout t => exact hP.timeout t h
  | byteReceived bits stop => exact hP.congr (byteReceived_line s _).deskSame h
  | lineQuiet => exact hP.congr (lineQuiet_line s).deskSame h
  | attemptStart => exact hP.congr (attemptStart_line s).deskSame h
  | arbitrationLoss => exact hP.congr (arbitrationLoss_line s).deskSame h
  | holdByte => exact hP.congr (holdByte_line s).deskSame h
  | holdOut => exact hP.congr (holdOut_line s).deskSame h
  | frameAbandoned => exact hP.congr (abandonFrame_line s).deskSame h
  | attemptComplete => exact hP.congr (attemptComplete_line s).deskSame h
  | frameComplete => exact hP.congr (frameComplete_line s).deskSame h
  | dispatchEnd => exact hP.congr (dispatchEnd_line s).deskSame h

theorem assertReset (h : P s) : P (assertReset s) := by
  refine hP.congr (s := s.withTerminals (s.terminals.map Terminal.silenced)) ⟨rfl, rfl, rfl, rfl⟩
    (hP.faces _ (fun u => ?_) h)
  rw [Quad.get_map]
  rfl

/-- A desk invariant is kept by every step. -/
theorem step {t : State} (h : P s) (hst : step s = .next t) : P t :=
  step_keeps (P := P) (fun _ _ => hP.congr ⟨rfl, rfl, rfl, rfl⟩) (fun _ h => hP.assertReset h)
    (fun pins s _ => hP.release pins s) (fun s _ h => hP.congr (timerClock_tape s).deskSame h)
    (fun c _ hr h => hP.effectOf c hr h) h hst

end DeskInvariant

end Sys2Proof.Machine
end

section
/-!
PROOFS. The law of the terminals (R139, R145, R148, R151, R158, R168, R173): an ask exactly in ASKING, a
shown symbol exactly in SHOWING and LIMIT ENTRY, keys waiting only in ASKING, every list within its size.
-/
namespace Sys2Proof.Machine

/-! ### The law out of ASKING -/

/-- The sizes that the law bounds, but for the key queue. -/
def Terminal.sized (m : Terminal) : Prop :=
  m.entry.length ≤ 4 ∧ m.whole.length ≤ 4 ∧ m.watch.length ≤ 6 ∧ m.alerts.length ≤ 4

/-- The law of a terminal that is not in ASKING, in the state `st`. -/
def Terminal.keptIn (st : TermState) (m : Terminal) : Prop :=
  m.state = st ∧ m.ask = none ∧ (m.shown.isSome ↔ st = .showing ∨ st = .limitEntry) ∧ m.keyQueue = [] ∧
    m.sized

theorem Terminal.keptIn.wellKept {m : Terminal} {st : TermState} (h : m.keptIn st) (hst : st ≠ .asking) :
    m.wellKept := by
  obtain ⟨rfl, hask, hshown, hq, hentry, hwhole, hwatch, halerts⟩ := h
  refine ⟨by simp [hask, hst], hshown, fun _ => hq, by simp [hq], hentry, hwhole, hwatch, halerts⟩

theorem Terminal.wellKept.keptIn {m : Terminal} {st : TermState} (h : m.wellKept) (hm : m.state = st)
    (hst : st ≠ .asking) : m.keptIn st := by
  obtain ⟨hask, hshown, hq, -, hentry, hwhole, hwatch, halerts⟩ := h
  subst hm
  refine ⟨rfl, ?_, hshown, hq hst, hentry, hwhole, hwatch, halerts⟩
  exact Option.not_isSome_iff_eq_none.1 fun hs => hst (hask.1 hs)

/-- The law reads nothing of a terminal's face. -/
theorem Terminal.sameFace.wellKept {m x : Terminal} (h : m.sameFace x) (hm : m.wellKept) : x.wellKept := by
  rw [h]
  exact hm

theorem Terminal.atReset_wellKept : Terminal.atReset.wellKept := by
  unfold Terminal.wellKept
  decide

/-! ### Keys taken out of ASKING (R144 to R152) -/

section Keys
variable {u : Fin 4} {s v : State} {m : Terminal} {y : Symbol}

/-- A change of terminal u after one of other blocks. -/
theorem wellKept_onTerm {f : Terminal → Terminal} (hv : v.term u = m) (h : (f m).wellKept) :
    ((v.onTerm u f).term u).wellKept := by
  rw [State.term_onTerm_self, hv]
  exact h

theorem rejectBeep_wellKept (h : (s.term u).wellKept) : ((rejectBeep u s).term u).wellKept :=
  wellKept_onTerm rfl h

theorem keyIdle_wellKept (k : Key) (h : (s.term u).keptIn .idle) : ((keyIdle u k s).term u).wellKept := by
  have hkept := h.wellKept (by decide)
  cases k
  case letter l =>
    obtain ⟨-, hask, hshown, hq, -, hwhole, hwatch, halerts⟩ := h
    refine wellKept_onTerm (f := fun m => { m with entry := [l], state := .keying }) rfl
      (Terminal.keptIn.wellKept (st := .keying) ⟨rfl, hask, ?_, hq, ?_, hwhole, hwatch, halerts⟩ (by decide))
    · simpa using hshown
    · simp
  all_goals exact hkept

theorem quoteEntry_wellKept (y : Symbol) (h : (s.term u).keptIn .keying) :
    ((quoteEntry u y s).term u).wellKept := by
  have hkept := h.wellKept (by decide)
  obtain ⟨-, hask, hshown, hq, hentry, hwhole, hwatch, halerts⟩ := h
  unfold quoteEntry
  split_ifs
  · exact wellKept_onTerm (v := beginShowing y s) rfl (Terminal.keptIn.wellKept (st := .showing)
      ⟨rfl, hask, by simp, hq, by simp, hwhole, hwatch, halerts⟩ (by decide))
  · exact wellKept_onTerm rfl hkept
  · exact wellKept_onTerm rfl hkept
  · refine wellKept_onTerm (v := (s.withAskTag (s.askTag + 1)).appendGeneral 0 _) rfl
      ⟨by simp, ?_, fun h => absurd rfl h, ?_, hentry, hwhole, hwatch, halerts⟩
    · simpa using hshown
    · simp [hq]

theorem keyKeying_wellKept (k : Key) (h : (s.term u).keptIn .keying) : ((keyKeying u k s).term u).wellKept := by
  have hkept := h.wellKept (by decide)
  have hquote := quoteEntry_wellKept (entrySymbol (s.term u).entry) h
  obtain ⟨hst, hask, hshown, hq, hentry, hwhole, hwatch, halerts⟩ := h
  cases k
  case letter l =>
    unfold keyKeying
    split_ifs with hlen
    · exact wellKept_onTerm rfl (Terminal.keptIn.wellKept (st := .keying)
        ⟨hst, hask, hshown, hq, by simpa using hlen, hwhole, hwatch, halerts⟩ (by decide))
    · exact rejectBeep_wellKept hkept
  case rub =>
    have hlen : (s.term u).entry.dropLast.length ≤ 4 := by
      rw [List.length_dropLast]
      omega
    by_cases he : (s.term u).entry.dropLast = []
    · exact wellKept_onTerm rfl (Terminal.keptIn.wellKept (st := .idle)
        ⟨if_pos he, hask, hshown.trans (by decide), hq, hlen, hwhole, hwatch, halerts⟩ (by decide))
    · exact wellKept_onTerm rfl (Terminal.keptIn.wellKept (st := .keying)
        ⟨if_neg he, hask, hshown, hq, hlen, hwhole, hwatch, halerts⟩ (by decide))
  case clear =>
    exact wellKept_onTerm (f := fun m => { m with entry := [], state := .idle }) rfl
      (Terminal.keptIn.wellKept (st := .idle)
        ⟨rfl, hask, by simpa using hshown, hq, by simp, hwhole, hwatch, halerts⟩ (by decide))
  case quote => exact hquote
  all_goals exact rejectBeep_wellKept hkept

theorem addWatch_keptIn (e : WatchEntry) {st : TermState} (h : (s.term u).keptIn st)
    (hlen : (s.term u).watch.length < 6) : ((addWatch u e s).term u).keptIn st := by
  obtain ⟨hm, hask, hshown, hq, hentry, hwhole, -, halerts⟩ := h
  rw [addWatch, State.term_onTerm_self]
  exact ⟨hm, hask, hshown, hq, hentry, hwhole, by simpa using hlen, halerts⟩

theorem keyShowing_wellKept (k : Key) (hy : (s.term u).shown = some y) (h : (s.term u).keptIn .showing) :
    ((keyShowing u k y s).term u).wellKept := by
  have hkept := h.wellKept (by decide)
  have hall := h
  obtain ⟨hst, hask, hshown, hq, hentry, hwhole, hwatch, halerts⟩ := h
  have hstop : (stopShowing u s).term u = { s.term u with shown := none } := by
    simp only [stopShowing, hy]
    rw [State.term_onTerm_self]
    rfl
  cases k
  case letter l =>
    exact wellKept_onTerm hstop (Terminal.keptIn.wellKept (st := .keying)
      ⟨rfl, hask, by simp, hq, by simp, hwhole, hwatch, halerts⟩ (by decide))
  case clear =>
    exact wellKept_onTerm hstop (Terminal.keptIn.wellKept (st := .idle)
      ⟨rfl, hask, by simp, hq, by simp, hwhole, hwatch, halerts⟩ (by decide))
  case quote => exact hkept
  case watch =>
    unfold keyShowing watchShown
    split_ifs with hw hfull
    · exact rejectBeep_wellKept hkept
    · exact rejectBeep_wellKept hkept
    · exact (addWatch_keptIn _ hall (Nat.lt_of_not_le hfull)).wellKept (by decide)
  case unwatch =>
    unfold keyShowing unwatchShown
    split_ifs
    · exact wellKept_onTerm (v := releaseRecord y s) rfl (Terminal.keptIn.wellKept (st := .showing)
        ⟨hst, hask, hshown, hq, hentry, hwhole, (List.length_filter_le _ _).trans hwatch, halerts⟩ (by decide))
    · exact rejectBeep_wellKept hkept
  case next =>
    show ((nextShown u y s).term u).wellKept
    unfold nextShown
    split
    · exact rejectBeep_wellKept hkept
    · next target _ =>
      split_ifs
      · exact hkept
      · exact wellKept_onTerm (v := beginShowing target (releaseRecord y s)) rfl
          (Terminal.keptIn.wellKept (st := .showing)
            ⟨hst, hask, by simp, hq, hentry, hwhole, hwatch, halerts⟩ (by decide))
  case limit =>
    exact wellKept_onTerm (f := fun m => { m with whole := [], fracMark := false, eighths := none,
                                                  state := .limitEntry }) rfl
      (Terminal.keptIn.wellKept (st := .limitEntry)
        ⟨rfl, hask, by simpa using hshown, hq, hentry, by simp, hwatch, halerts⟩ (by decide))
  all_goals exact rejectBeep_wellKept hkept

/-- R152: the commit of a limit, before the entry is left. -/
theorem commitLimit_keptIn (y : Symbol) (p : Nat) {st : TermState} (h : (s.term u).keptIn st) :
    ((commitLimit u y p s).term u).keptIn st := by
  have hbeep : ((rejectBeep u s).term u).keptIn st := by
    rw [rejectBeep, State.term_onTerm_self]
    exact h
  unfold commitLimit
  split
  · exact hbeep
  · split_ifs with _ _ hfull
    · exact hbeep
    · rw [State.term_onTerm_self]
      obtain ⟨hm, hask, hshown, hq, hentry, hwhole, hwatch, halerts⟩ := h
      exact ⟨hm, hask, hshown, hq, hentry, hwhole, by simpa [Terminal.arm] using hwatch, halerts⟩
    · exact hbeep
    · exact addWatch_keptIn _ h (Nat.lt_of_not_le hfull)

theorem leaveLimit_wellKept (h : m.keptIn .limitEntry) : m.leaveLimit.wellKept := by
  obtain ⟨-, hask, hshown, hq, hentry, -, hwatch, halerts⟩ := h
  exact Terminal.keptIn.wellKept (st := .showing)
    ⟨rfl, hask, hshown.trans (by decide), hq, hentry, by simp [Terminal.leaveLimit], hwatch, halerts⟩ (by decide)

theorem keyLimitEntry_wellKept (k : Key) (y : Symbol) (h : (s.term u).keptIn .limitEntry) :
    ((keyLimitEntry u k y s).term u).wellKept := by
  have hkept := h.wellKept (by decide)
  have hcommit := commitLimit_keptIn y (s.term u).limitValue h
  have hleave := leaveLimit_wellKept h
  obtain ⟨hst, hask, hshown, hq, hentry, hwhole, hwatch, halerts⟩ := h
  cases k
  case digit d =>
    show ((limitDigit u d s).term u).wellKept
    unfold limitDigit
    split_ifs with _ _ _ hlen
    · exact rejectBeep_wellKept hkept
    · exact wellKept_onTerm rfl hkept
    · exact rejectBeep_wellKept hkept
    · exact wellKept_onTerm rfl (Terminal.keptIn.wellKept (st := .limitEntry)
        ⟨hst, hask, hshown, hq, hentry, by simpa using hlen, hwatch, halerts⟩ (by decide))
    · exact rejectBeep_wellKept hkept
  case fraction =>
    unfold keyLimitEntry
    split_ifs
    · exact rejectBeep_wellKept hkept
    · exact wellKept_onTerm rfl hkept
  case rub =>
    show ((limitRub u s).term u).wellKept
    unfold limitRub
    split_ifs
    · exact wellKept_onTerm rfl hkept
    · exact wellKept_onTerm rfl hkept
    · exact rejectBeep_wellKept hkept
    · exact wellKept_onTerm rfl (Terminal.keptIn.wellKept (st := .limitEntry)
        ⟨hst, hask, hshown, hq, hentry, by simp only [List.length_dropLast]; omega, hwatch, halerts⟩ (by decide))
  case quote =>
    show ((limitQuote u y s).term u).wellKept
    unfold limitQuote
    split_ifs
    · exact wellKept_onTerm rfl (leaveLimit_wellKept hcommit)
    · exact rejectBeep_wellKept hkept
  case clear => exact wellKept_onTerm rfl hleave
  all_goals exact rejectBeep_wellKept hkept

/-- R160: an abandoned ask. -/
theorem abandonAsk_term (u : Fin 4) (s : State) :
    (abandonAsk u s).term u = ({ s.term u with ask := none } : Terminal).dropAsk := by
  rw [abandonAsk, State.term_onTerm_self]
  unfold endAsk
  split
  · next h => rw [← h]
  · rw [State.term_onTerm_self]
    rfl

/-- R160: ASKING ends in IDLE. -/
theorem dropAsk_wellKept (h : m.wellKept) (hst : m.state = .asking) :
    ({ m with ask := none } : Terminal).dropAsk.wellKept := by
  obtain ⟨-, hshown, -, -, -, hwhole, hwatch, halerts⟩ := h
  rw [hst] at hshown
  exact Terminal.keptIn.wellKept (st := .idle)
    ⟨rfl, rfl, hshown.trans (by decide), rfl, by simp [Terminal.dropAsk], hwhole, hwatch, halerts⟩ (by decide)

/-- A taken key keeps the law of its terminal. -/
theorem takeKey_wellKept (k : Key) (h : (s.term u).wellKept) : ((takeKey u k s).term u).wellKept := by
  have hhush : ((s.onTerm u Terminal.hush).term u).wellKept := wellKept_onTerm rfl h
  unfold takeKey
  generalize s.onTerm u Terminal.hush = v at hhush
  unfold keyOrAcknowledge
  split_ifs
  · obtain ⟨hask, hshown, hq, hlen, hentry, hwhole, hwatch, halerts⟩ := hhush
    exact wellKept_onTerm rfl ⟨hask, hshown, hq, hlen, hentry, hwhole, hwatch,
      by simp only [List.length_tail]; omega⟩
  · unfold keyByState
    split
    · exact keyIdle_wellKept k (hhush.keptIn ‹_› (by decide))
    · exact keyKeying_wellKept k (hhush.keptIn ‹_› (by decide))
    · split_ifs
      · rw [abandonAsk_term]
        exact dropAsk_wellKept hhush ‹_›
      · exact hhush
    · exact keyShowing_wellKept k ‹_› (hhush.keptIn ‹_› (by decide))
    · exact keyLimitEntry_wellKept k _ (hhush.keptIn ‹_› (by decide))
    · exact hhush
    · exact hhush

end Keys

/-! ### The keys that wait (R139, R140) -/

section Drain
variable {u : Fin 4} {s : State} {ks : List Key}

/-- R139, R140: the taking of the keys that wait comes to a state that taken keys have reached, with the rest
of the keys waiting, none of them out of ASKING. -/
theorem drainKeys_reaches {P : State → Prop}
    (hkey : ∀ v k, P v → (v.term u).state ≠ .asking → (v.term u).keyQueue = [] → P (takeKey u k v)) (n : Nat)
    (h : P s) (hq : (s.term u).keyQueue = []) (hn : ks.length ≤ n) :
    ∃ v ks', P v ∧ (v.term u).keyQueue = [] ∧ drainKeys u n (s.withKeys u ks) = v.withKeys u ks' ∧
      ks'.length ≤ ks.length ∧ ((v.term u).state ≠ .asking → ks' = []) := by
  induction n generalizing s ks with
  | zero =>
    obtain rfl : ks = [] := List.length_eq_zero_iff.1 (Nat.le_zero.1 hn)
    exact ⟨s, [], h, hq, rfl, le_rfl, fun _ => rfl⟩
  | succ n ih =>
    cases ks with
    | nil => exact ⟨s, [], h, hq, drainKeys_nil u _ (withKeys_keyQueue s u []), le_rfl, fun _ => rfl⟩
    | cons k ks =>
      by_cases hst : (s.term u).state = .asking
      · refine ⟨s, k :: ks, h, hq, ?_, le_rfl, fun hn => absurd hst hn⟩
        rw [drainKeys, withKeys_state, hst]
      · rw [drainKeys_withKeys n hst]
        obtain ⟨v, ks', hv, hvq, heq, hlen, hnone⟩ := ih (hkey s k h hst hq) (takeKey_keyQueue_nil u k hq)
          (Nat.le_of_succ_le_succ hn)
        exact ⟨v, ks', hv, hvq, heq, hlen.trans (Nat.le_succ _), hnone⟩

theorem withKeys_wellKept (h : (s.term u).wellKept) (h4 : ks.length ≤ 4)
    (hst : (s.term u).state ≠ .asking → ks = []) : ((s.withKeys u ks).term u).wellKept := by
  rw [term_withKeys]
  obtain ⟨hask, hshown, -, -, hrest⟩ := h
  exact ⟨hask, hshown, hst, h4, hrest⟩

/-- The keys that wait are taken under the law. -/
theorem drainKeys_wellKept (n : Nat) (h : (s.term u).wellKept) (hq : (s.term u).keyQueue = [])
    (hn : ks.length ≤ n) (h4 : ks.length ≤ 4) : ((drainKeys u n (s.withKeys u ks)).term u).wellKept := by
  obtain ⟨v, ks', hv, -, heq, hlen, hnone⟩ := drainKeys_reaches (P := fun v => (v.term u).wellKept)
    (fun v k hv _ _ => takeKey_wellKept k hv) n h hq hn
  rw [heq]
  exact withKeys_wellKept hv (hlen.trans h4) hnone

theorem offerKey_wellKept (k : Key) (h : (s.term u).wellKept) : ((offerKey u k s).term u).wellKept := by
  obtain ⟨hask, hshown, hq, hlen, hrest⟩ := id h
  unfold offerKey
  split_ifs with ha hfull hst hc
  · exact wellKept_onTerm (v := s.count .keysAlertsDropped) rfl h
  · exact takeKey_wellKept k h
  · refine wellKept_onTerm rfl ⟨hask, hshown, fun hn => absurd hst hn, ?_, hrest⟩
    rw [List.length_append]
    exact Nat.lt_of_not_le hfull
  · have hempty := hq hst
    have hput : enqueueKey u k s = s.withKeys u [k] := by
      rw [enqueueKey, State.onTerm_eq, hempty]
      rfl
    rw [hput]
    exact drainKeys_wellKept _ h hempty (by simp [Config.keyQueueSize]) (by simp)
  · exact h

end Drain

/-! ### Answers, fires and the resets -/

/-- R147: a terminal in ASKING that an Answer completes, its keys put aside. -/
theorem answeredBy_wellKept {m : AnswerMsg} {s : State} (h : answerMatches m s = true)
    (hk : (s.term m.terminal).wellKept) :
    ((((s.withKeys m.terminal []).answeredBy m)).term m.terminal).wellKept := by
  obtain ⟨-, -, a, ha, -, -⟩ := (answerMatches_iff m s).1 h
  obtain ⟨r, hr⟩ := exists_ensureHeld m.symbol s.table
  obtain ⟨-, -, -, -, -, hwhole, hwatch, halerts⟩ := hk
  rw [answeredBy_withKeys ha, answeredBy_eq ha hr, term_withKeys, State.term, Quad.get_set_self]
  exact Terminal.keptIn.wellKept (st := .showing)
    ⟨rfl, rfl, by simp, rfl, by simp, hwhole, hwatch, halerts⟩ (by decide)

theorem takeAnswer_wellKept {m : AnswerMsg} {s : State} (hk : (s.term m.terminal).wellKept) :
    ((takeAnswer m s).term m.terminal).wellKept := by
  by_cases h : answerMatches m s = true
  · rw [takeAnswer_of_match h, answeredBy_split h]
    obtain ⟨-, -, -, hlen, -⟩ := id hk
    exact drainKeys_wellKept 4 (answeredBy_wellKept h hk) (answeredBy_keyQueue h) hlen hlen
  · rw [takeAnswer, if_neg h]
    exact hk

theorem fire_wellKept (y : Symbol) (p : Nat) (d : Direction) {m : Terminal} (h : m.wellKept) :
    (m.fire y p d).wellKept := by
  obtain ⟨hask, hshown, hq, hlen, hentry, hwhole, hwatch, halerts⟩ := h
  refine ⟨hask, hshown, hq, hlen, hentry, hwhole, by simpa [Terminal.fire, Terminal.beep] using hwatch, ?_⟩
  have h4 : m.alerts.length ≤ 4 := halerts
  show (addAlert _ m.alerts).length ≤ 4
  unfold addAlert Config.alertSize
  rw [List.length_append, List.length_singleton]
  split_ifs
  · rw [List.length_tail]
    omega
  · omega

theorem timedOut_wellKept {m : Terminal} (h : m.wellKept) (hask : m.ask.isSome) : m.timedOut.wellKept :=
  dropAsk_wellKept h (h.1.1 hask)

theorem dayStart_wellKept (m : Terminal) : m.dayStart.wellKept := Terminal.atReset_wellKept

/-! ### The law at all four terminals -/

/-- A change at terminal u alone that keeps its law keeps the law of all four. -/
theorem terminalsWellKept_of_others {u : Fin 4} {s t : State} (ho : ∀ v, v ≠ u → t.term v = s.term v)
    (h : terminalsWellKept s) (hu : (t.term u).wellKept) : terminalsWellKept t := by
  intro v
  by_cases hv : v = u
  · rwa [hv]
  · rw [ho v hv]
    exact h v

theorem dayStart_terms (s : State) (u : Fin 4) :
    (dayStart s).term u = if s.active u then (s.term u).dayStart else s.term u := by
  obtain ⟨q, hget, heq⟩ := dayStarted_eq s
  have hterms : (dayStart s).terminals = s.dayStarted.terminals := (requestAtZero_tape s.dayStarted).terminals
  rw [State.term, hterms, heq]
  exact hget u

theorem powerOnReset_term (pins : StrapPins) (s : State) (u : Fin 4) :
    (powerOnReset pins s).term u = Terminal.atReset := by
  have hterms : (powerOnReset pins s).terminals = State.reset.terminals :=
    (requestAtZero_tape (s.powerOn (readStraps pins))).terminals
  rw [State.term, hterms]
  exact term_reset u

theorem takeAnswer_others {m : AnswerMsg} {s : State} (v : Fin 4) (hv : v ≠ m.terminal) :
    (takeAnswer m s).term v = s.term v := by
  by_cases h : answerMatches m s = true
  · obtain ⟨-, -, a, ha, -, -⟩ := (answerMatches_iff m s).1 h
    obtain ⟨r, hr⟩ := exists_ensureHeld m.symbol s.table
    rw [takeAnswer_of_match h, (drainKeys_footprint m.terminal (s.answeredBy m) 4).others v hv,
      answeredBy_eq ha hr]
    exact Quad.get_set_of_ne _ _ hv
  · rw [takeAnswer, if_neg h]
    rfl

/-- The law of the terminals is one of the desk's invariants. -/
theorem terminalsWellKept_desk : DeskInvariant terminalsWellKept where
  congr := fun ⟨_, _, hterms, _⟩ h u => by
    rw [State.term, hterms]
    exact h u
  records _ _ h := h
  cells _ _ h := h
  faces _ hq h u := (hq u).wellKept (h u)
  key u k _ h := terminalsWellKept_of_others (offerKey_scan u _ k).others h (offerKey_wellKept k (h u))
  timeout u h := by
    rename_i s
    obtain ⟨line, tallies, heq, -⟩ := timeoutAsk_eq u s
    refine terminalsWellKept_of_others (timeoutAsk_scan u s).others h ?_
    rw [heq, State.term, Quad.get_set_self, State.afterTimeout]
    split_ifs with hdue
    · obtain ⟨a, ha, -⟩ := (askDue_iff u s).1 hdue
      exact timedOut_wellKept (h u) (by simp [ha])
    · exact h u
  fire y p u h := by
    rename_i s
    rcases fireAt_cases s y p u with e | ⟨l, -, -, -, e⟩ <;> rw [e]
    · exact h
    · have hbase : terminalsWellKept (if 4 ≤ (s.term u).alerts.length then s.count .keysAlertsDropped else s) := by
        split_ifs <;> exact h
      refine terminalsWellKept_of_others (fun v hv => State.term_onTerm_of_ne _ _ hv) hbase ?_
      rw [State.term_onTerm_self]
      exact fire_wellKept _ _ _ (hbase u)
  plan _ h := h
  answer m _ h := terminalsWellKept_of_others takeAnswer_others h (takeAnswer_wellKept (h m.terminal))
  restart h u := by
    rw [dayStart_terms]
    split_ifs
    · exact dayStart_wellKept _
    · exact h u
  release pins s u := by
    rw [powerOnReset_term]
    exact Terminal.atReset_wellKept

/-- Settles O6: the law of the terminals as a desk invariant. -/
theorem stepKeepsTerminalLaw : Obligations.StepKeepsTerminalLaw := fun _ _ h hst =>
  terminalsWellKept_desk.step h hst

end Sys2Proof.Machine
end

section
/-!
PROOFS. The cell pins (R20, R23, R36 to R38): the symbols stay distinct, and a record's pins are the cells
whose plan link names its symbol.
-/
namespace Sys2Proof.Machine

/-! ### The law of the pins, over a table and the links -/

/-- R20, R23: the symbols of the table are distinct, a record's pins are the cells linked to its symbol, and
a linked symbol is held. -/
def pinsLaw (links : Fin 16 → Option Symbol) (table : List QuoteRecord) : Prop :=
  (table.map QuoteRecord.symbol).Nodup ∧
  (∀ r ∈ table, ∀ c, c ∈ r.pins ↔ links c = some r.symbol) ∧
  (∀ c y, links c = some y → ∃ r ∈ table, r.symbol = y)

theorem held_iff (y : Symbol) (table : List QuoteRecord) :
    (findRecord y table).isSome = true ↔ ∃ r ∈ table, r.symbol = y := by
  rw [Option.isSome_iff_exists]
  constructor
  · rintro ⟨r, hr⟩
    exact ⟨r, findRecord_some hr⟩
  · rintro ⟨r, hr, hy⟩
    refine Option.isSome_iff_exists.1 (Option.isSome_iff_ne_none.2 fun hnone => ?_)
    exact findRecord_none.1 hnone r hr hy

theorem pinsFollowLinks_iff (s : State) :
    pinsFollowLinks s ↔ cellsNumbered s ∧ pinsLaw s.linkOf s.table := by
  simp only [pinsFollowLinks, pinsLaw, symbolsDistinct, held_iff]
  tauto

section Law
variable {links : Fin 16 → Option Symbol} {table table' : List QuoteRecord} {y : Symbol}

/-- A table of the same symbols and pins, in any order, is under the same law. -/
theorem pinsLaw.of_pinsKept (h : pinsLaw links table) (hk : pinsKept table table') : pinsLaw links table' := by
  obtain ⟨hd, hpins, hheld⟩ := h
  have hperm := hk hd
  refine ⟨(symbols_perm hperm).nodup_iff.2 hd, fun r hr => ?_, fun c y hc => ?_⟩
  · obtain ⟨q, hq, he⟩ := List.mem_map.1 (hperm.subset (List.mem_map.2 ⟨r, hr, rfl⟩))
    obtain ⟨hsym, hpin⟩ : q.symbol = r.symbol ∧ q.pins = r.pins := by simpa using he
    rw [← hsym, ← hpin]
    exact hpins q hq
  · obtain ⟨q, hq, hy⟩ := hheld c y hc
    obtain ⟨r, hr, he⟩ := List.mem_map.1 (hperm.symm.subset (List.mem_map.2 ⟨q, hq, rfl⟩))
    obtain ⟨hsym, -⟩ : r.symbol = q.symbol ∧ r.pins = q.pins := by simpa using he
    exact ⟨r, hr, hsym.trans hy⟩

/-- R22: an eviction removes one record, unpinned, or none. -/
theorem evict_cases (table : List QuoteRecord) : (evict table = table ∧ ∀ r ∈ table, r.pinned = true) ∨
    ∃ before r after, table = before ++ r :: after ∧ r.pinned = false ∧ evict table = before ++ after := by
  by_cases hall : ∀ r ∈ table, r.pinned = true
  · refine .inl ⟨?_, hall⟩
    rw [evict, List.eraseP_of_forall_not fun r hr => by simp [hall r (List.mem_reverse.1 hr)],
      List.reverse_reverse]
  · obtain ⟨q, hq, hqp⟩ : ∃ q ∈ table.reverse, (!q.pinned) = true := by simpa using hall
    obtain ⟨r, l₁, l₂, -, hr, hrev, herase⟩ := List.exists_of_eraseP (p := fun r => !r.pinned) hq hqp
    refine .inr ⟨l₂.reverse, r, l₁.reverse, ?_, by simpa using hr, ?_⟩
    · rw [← List.reverse_reverse (as := table), hrev]
      simp
    · rw [evict, herase]
      simp

/-- R22: what an eviction removes has no pins, so that no link names it. -/
theorem pinsLaw.evict (h : pinsLaw links table) : pinsLaw links (evict table) := by
  rcases evict_cases table with ⟨he, -⟩ | ⟨before, r, after, rfl, hr, he⟩ <;> rw [he]
  · exact h
  · obtain ⟨hd, hpins, hheld⟩ := h
    have hsub : (before ++ after).Sublist (before ++ r :: after) :=
      (List.Sublist.refl _).append (List.sublist_cons_self _ _)
    refine ⟨(hsub.map _).nodup hd, fun q hq => hpins q (hsub.subset hq), fun c y hc => ?_⟩
    obtain ⟨q, hq, hy⟩ := hheld c y hc
    have hne : q ≠ r := by
      rintro rfl
      have hmem := (hpins q hq c).2 (hy ▸ hc)
      rw [((pinned_eq_false q).1 hr).1] at hmem
      cases hmem
    exact ⟨q, by simpa [hne] using hq, hy⟩

/-- R21: an installed record has no pins, and no link names its symbol. -/
theorem pinsLaw.ensureHeld (h : pinsLaw links table) (y : Symbol) : pinsLaw links (ensureHeld y table) := by
  cases hr : findRecord y table with
  | some r => rwa [ensureHeld_of_held hr]
  | none =>
    rw [ensureHeld_of_absent hr]
    have habsent := findRecord_none.1 hr
    have hrest : pinsLaw links (if table.length < 64 then table else Machine.evict table) ∧
        ∀ r ∈ (if table.length < 64 then table else Machine.evict table), r.symbol ≠ y := by
      split_ifs
      · exact ⟨h, habsent⟩
      · exact ⟨h.evict, fun r hr => habsent r ((evict_sublist table).subset hr)⟩
    have hlink : ∀ c, links c ≠ some y := fun c hc => by
      obtain ⟨r, hr, hy⟩ := h.2.2 c y hc
      exact habsent r hr hy
    obtain ⟨⟨hd, hpins, hheld⟩, hne⟩ := hrest
    refine ⟨?_, fun r hr c => ?_, fun c z hc => ?_⟩
    · refine List.nodup_cons.2 ⟨fun hmem => ?_, hd⟩
      obtain ⟨r, hr, hy⟩ := List.mem_map.1 hmem
      exact hne r hr hy
    · rcases List.mem_cons.1 hr with rfl | hr
      · exact ⟨fun hmem => absurd hmem List.not_mem_nil, fun hc => absurd hc (hlink c)⟩
      · exact hpins r hr c
    · obtain ⟨r, hr, hz⟩ := hheld c z hc
      exact ⟨r, List.mem_cons_of_mem _ hr, hz⟩

/-- A change of one symbol's record and of the links that keeps them in step. -/
theorem pinsLaw.onRecord {links' : Fin 16 → Option Symbol} {f : QuoteRecord → QuoteRecord}
    (h : pinsLaw links table) (hf : ∀ r, (f r).symbol = r.symbol)
    (hpins : ∀ r ∈ table, r.symbol = y → ∀ c, c ∈ (f r).pins ↔ links' c = some y)
    (hothers : ∀ c z, z ≠ y → (links' c = some z ↔ links c = some z))
    (hheld : ∀ c, links' c = some y → ∃ r ∈ table, r.symbol = y) :
    pinsLaw links' (updateRecord y f table) := by
  obtain ⟨hd, hp, hh⟩ := h
  have hmem : ∀ r ∈ table, ∃ q ∈ updateRecord y f table, q.symbol = r.symbol := fun r hr =>
    ⟨_, mem_updateRecord.2 ⟨r, hr, rfl⟩, by split_ifs <;> simp [hf]⟩
  refine ⟨by rwa [updateRecord_symbols table hf], fun q hq c => ?_, fun c z hc => ?_⟩
  · obtain ⟨r, hr, rfl⟩ := mem_updateRecord.1 hq
    split_ifs with hy
    · rw [hf, hy]
      exact hpins r hr hy c
    · rw [hothers c _ hy]
      exact hp r hr c
  · obtain ⟨r, hr, hz⟩ : ∃ r ∈ table, r.symbol = z := by
      by_cases hy : z = y
      · subst hy
        exact hheld c hc
      · exact hh c z ((hothers c z hy).1 hc)
    obtain ⟨q, hq, hqr⟩ := hmem r hr
    exact ⟨q, hq, hqr.trans hz⟩

/-- A law over the links is one over any links that agree with them. -/
theorem pinsLaw.congr_links {links' : Fin 16 → Option Symbol} (h : pinsLaw links table)
    (he : ∀ c, links' c = links c) : pinsLaw links' table := by
  rwa [show links' = links from funext he]

end Law

/-! ### The links (R36, R38) -/

theorem linkOf_of_map {s t : State} {g : CellRecord → CellRecord} (ht : t.cells = s.cells.map g)
    (hg : ∀ c, (g c).number = c.number) (n : Fin 16) :
    t.linkOf n = (s.cell n).bind fun c => (g c).link := by
  have hcell : t.cell n = (s.cell n).map g := by
    rw [State.cell, ht, List.find?_map, State.cell]
    refine congrArg (Option.map g) (List.find?_congr fun c _ => ?_)
    rw [Function.comp, hg]
  rw [State.linkOf, hcell]
  cases s.cell n <;> rfl

theorem linkOf_of_ties {s t : State} (h : t.cells.map CellRecord.ties = s.cells.map CellRecord.ties)
    (n : Fin 16) : t.linkOf n = s.linkOf n := by
  have hfind : ∀ cells : List CellRecord, (cells.find? (fun c => c.number == n)).bind CellRecord.link =
      ((cells.map CellRecord.ties).find? (fun x => x.1 == n)).bind Prod.snd := by
    intro cells
    rw [List.find?_map]
    show _ = (Option.map CellRecord.ties (cells.find? fun c => c.number == n)).bind Prod.snd
    cases cells.find? (fun c => c.number == n) <;> rfl
  rw [State.linkOf, State.cell, hfind, h, ← hfind]
  rfl

theorem cellsNumbered_of_ties {s t : State} (h : t.cells.map CellRecord.ties = s.cells.map CellRecord.ties)
    (hs : cellsNumbered s) : cellsNumbered t := by
  have hnumber : ∀ cells : List CellRecord,
      cells.map CellRecord.number = (cells.map CellRecord.ties).map Prod.fst := by
    intro cells
    rw [List.map_map]
    rfl
  rw [cellsNumbered, hnumber, h, ← hnumber]
  exact hs

/-- Every cell number has its cell. -/
theorem exists_cell {s : State} (h : cellsNumbered s) (n : Fin 16) :
    ∃ c, s.cell n = some c ∧ c.number = n := by
  have hmem : n ∈ s.cells.map CellRecord.number := by
    rw [h]
    revert n
    decide
  obtain ⟨c, hc, hn⟩ := List.mem_map.1 hmem
  have hsome : (s.cell n).isSome = true := List.find?_isSome.2 ⟨c, hc, by simp [hn]⟩
  obtain ⟨d, hd⟩ := Option.isSome_iff_exists.1 hsome
  exact ⟨d, hd, by simpa using List.find?_some hd⟩

/-- R36, R38: after a Plan its cell links the symbol planned, and no other link changes. -/
theorem linkOf_tablePlan {m : PlanMsg} {s : State} (h : cellsNumbered s) (n : Fin 16) :
    (tablePlan m s).linkOf n = if n = m.cell then m.symbol else s.linkOf n := by
  have hcells : (tablePlan m s).cells = s.cells.map (fun c => if c.number = m.cell then
      c.onPlan m.symbol (linkedState m.symbol (planTable m (s.linkOf m.cell) s.table)) else c) := by
    exact congrArg State.cells (onCells_singleton _ m.cell _)
  obtain ⟨c, hc, hn⟩ := exists_cell h n
  rw [linkOf_of_map hcells fun c => by split_ifs <;> simp [onPlan_eq], hc]
  show (if c.number = m.cell then _ else c).link = _
  rw [hn]
  split_ifs
  · rw [onPlan_eq]
  · rw [State.linkOf, hc]
    rfl

theorem mem_cellNumbers : ∀ c : Fin 16, c ∈ cellNumbers := by decide

/-- R38: the table after a cell is unlinked is under the law of the links left. -/
theorem unlinkTable_pinsLaw {cell : Fin 16} {links : Fin 16 → Option Symbol} {table : List QuoteRecord}
    (h : pinsLaw links table) : pinsLaw (fun n => if n = cell then none else links n)
      (unlinkTable cell (links cell) table) := by
  cases hl : links cell with
  | none =>
    refine h.congr_links fun c => ?_
    split_ifs with hc
    · rw [hc, hl]
    · rfl
  | some z =>
    refine h.onRecord (y := z) (fun _ => rfl) (fun r hr hz c => ?_) (fun c x hx => ?_) fun c hc => ?_
    · have hp := h.2.1 r hr c
      rw [hz] at hp
      simp only [QuoteRecord.dropPin, List.mem_filter, hp, bne_iff_ne]
      split_ifs with hc <;> simp [hc]
    · split_ifs with hc
      · rw [hc, hl]
        simpa using hx.symm
      · rfl
    · split_ifs at hc
      exact h.2.2 c z hc

/-- R36, R37: the table after a Plan is under the law of the new links. -/
theorem planTable_pinsLaw {m : PlanMsg} {links : Fin 16 → Option Symbol} {table : List QuoteRecord}
    (h : pinsLaw links table) : pinsLaw (fun n => if n = m.cell then m.symbol else links n)
      (planTable m (links m.cell) table) := by
  have hties : ∀ (ref : Option Nat) (r : QuoteRecord),
      (r.withReference ref).symbol = r.symbol ∧ (r.withReference ref).pins = r.pins := fun ref r => by
    rw [withReference_eq]
    exact ⟨rfl, rfl⟩
  have hunlinked := unlinkTable_pinsLaw (cell := m.cell) h
  by_cases hsame : m.symbol = links m.cell
  · have hlinks : ∀ n, (if n = m.cell then m.symbol else links n) = links n := fun n => by
      split_ifs with hn
      · rw [hn, hsame]
      · rfl
    refine pinsLaw.congr_links (links := links) ?_ hlinks
    rw [← hsame]
    cases hy : m.symbol with
    | none => rwa [planTable_of_clear hy]
    | some y =>
      rw [planTable_of_refresh hy]
      exact h.of_pinsKept (pinsKept_updateRecord _ (fun r => (hties _ r).1) fun r => (hties _ r).2)
  · cases hy : m.symbol with
    | none =>
      rw [hy] at hsame
      obtain ⟨z, hz⟩ := Option.ne_none_iff_exists'.1 (Ne.symm hsame)
      rw [hz, planTable_of_unlink hy]
      rw [hz] at hunlinked
      exact hunlinked
    | some y =>
      rw [planTable_of_relink hy (by rw [← hy]; exact Ne.symm hsame)]
      refine (hunlinked.ensureHeld y).onRecord (y := y) (fun r => (hties _ _).1) (fun r hr hry c => ?_)
        (fun c x hx => ?_) fun c hc => ?_
      · have hp := (hunlinked.ensureHeld y).2.1 r hr c
        rw [hry] at hp
        rw [(hties _ _).2]
        simp only [QuoteRecord.addPin, List.mem_filter, mem_cellNumbers, true_and, Bool.or_eq_true, beq_iff_eq,
          List.contains_iff_mem, hp]
        split_ifs with hc <;> simp [hc]
      · split_ifs with hc
        · simpa using hx.symm
        · rfl
      · exact (held_iff y _).1 (findRecord_ensureHeld y _)

/-! ### The law of the pins as a desk invariant -/

theorem pinsKept_of_ties {table table' : List QuoteRecord}
    (h : table'.map QuoteRecord.ties = table.map QuoteRecord.ties) : pinsKept table table' := by
  have hpairs : ∀ l : List QuoteRecord, l.map (fun r => (r.symbol, r.pins)) =
      (l.map QuoteRecord.ties).map fun x => (x.1, x.2.1) := by
    intro l
    rw [List.map_map]
    rfl
  intro _
  rw [hpairs, hpairs table, h]

theorem pinsFollowLinks_of_kept {s t : State} (h : pinsFollowLinks s) (hk : pinsKept s.table t.table)
    (hc : t.cells.map CellRecord.ties = s.cells.map CellRecord.ties) : pinsFollowLinks t := by
  rw [pinsFollowLinks_iff] at h ⊢
  exact ⟨cellsNumbered_of_ties hc h.1, (h.2.of_pinsKept hk).congr_links fun n => linkOf_of_ties hc n⟩

/-- With no link and no record there is nothing to keep. -/
theorem pinsFollowLinks_of_unlinked {t : State} (htable : t.table = []) (hn : cellsNumbered t)
    (hlinks : ∀ n, t.linkOf n = none) : pinsFollowLinks t := by
  rw [pinsFollowLinks_iff, htable]
  exact ⟨hn, List.nodup_nil, fun r hr => absurd hr List.not_mem_nil, fun c y hc => by simp [hlinks] at hc⟩

theorem dayStart_board (s : State) :
    (dayStart s).table = [] ∧ (dayStart s).cells = s.cells.map CellRecord.dayStart := by
  obtain ⟨q, -, heq⟩ := dayStarted_eq s
  have htape := requestAtZero_tape s.dayStarted
  rw [dayStart_eq, htape.table, htape.cells, heq]
  exact ⟨rfl, rfl⟩

/-- A matching Answer leaves the records of the table it installed in, with their pins, and the links. -/
theorem takeAnswer_records {m : AnswerMsg} {s : State} (hm : answerMatches m s = true) :
    pinsKept (ensureHeld m.symbol s.table) (takeAnswer m s).table ∧
      (takeAnswer m s).cells.map CellRecord.ties = s.cells.map CellRecord.ties := by
  obtain ⟨-, -, a, ha, -, -⟩ := (answerMatches_iff m s).1 hm
  obtain ⟨r, hr⟩ := exists_ensureHeld m.symbol s.table
  have hdrain := drainKeys_footprint m.terminal (s.answeredBy m) 4
  have hkept : pinsKept (ensureHeld m.symbol s.table) (s.answeredBy m).table := by
    rw [answeredBy_eq ha hr, ← moveToFront_updateRecord (f := QuoteRecord.answered m) (fun _ => rfl) hr]
    exact (pinsKept_updateRecord _).trans (pinsKept_moveToFront _ _)
  rw [takeAnswer_of_match hm]
  refine ⟨hkept.trans hdrain.records, (congrArg _ hdrain.cells).trans ?_⟩
  rw [answeredBy_eq ha hr]
  show List.map CellRecord.ties (if r.state = m.state then s.cells else _) = s.cells.map CellRecord.ties
  split_ifs
  · rfl
  · rw [List.map_map]
    refine List.map_congr_left fun c _ => ?_
    rw [Function.comp, onState_eq]
    split_ifs <;> rfl

theorem takeAnswer_pinsFollowLinks {s : State} (m : AnswerMsg) (h : pinsFollowLinks s) :
    pinsFollowLinks (takeAnswer m s) := by
  by_cases hm : answerMatches m s = true
  · obtain ⟨hrecords, hcells⟩ := takeAnswer_records hm
    have hlaw : pinsFollowLinks (s.withTable (ensureHeld m.symbol s.table)) := by
      rw [pinsFollowLinks_iff] at h ⊢
      exact ⟨h.1, h.2.ensureHeld m.symbol⟩
    exact pinsFollowLinks_of_kept hlaw hrecords hcells
  · rw [takeAnswer, if_neg hm]
    exact h

/-- The law of the cell pins is one of the desk's invariants. -/
theorem pinsFollowLinks_desk : DeskInvariant pinsFollowLinks where
  congr := fun ⟨htable, hcells, _, _⟩ h => pinsFollowLinks_of_kept h (htable ▸ .refl _) (by rw [hcells])
  records table ht h := pinsFollowLinks_of_kept h (pinsKept_of_ties ht) rfl
  cells cells hc h := pinsFollowLinks_of_kept h (.refl _) hc
  faces _ _ h := h
  key u k hr h := by
    rename_i s
    have hscan := offerKey_scan u s k
    exact pinsFollowLinks_of_kept h hscan.records (congrArg _ hscan.cells)
  timeout u h := by
    rename_i s
    have hscan := timeoutAsk_scan u s
    exact pinsFollowLinks_of_kept h hscan.records (congrArg _ hscan.cells)
  fire y p u h := by
    rename_i s
    rcases fireAt_cases s y p u with e | ⟨l, -, -, -, e⟩ <;> rw [e]
    · exact h
    · split_ifs <;> exact h
  plan m h := by
    rw [pinsFollowLinks_iff] at h ⊢
    obtain ⟨hcells, hlaw⟩ := h
    refine ⟨?_, (planTable_pinsLaw hlaw).congr_links fun n => linkOf_tablePlan hcells n⟩
    refine Eq.trans ?_ hcells
    rw [tablePlan, onCells_singleton]
    refine (List.map_map ..).trans (List.map_congr_left fun c _ => ?_)
    show (if c.number = m.cell then _ else c).number = c.number
    split_ifs
    · rw [onPlan_eq]
    · rfl
  answer m _ h := takeAnswer_pinsFollowLinks m h
  restart h := by
    rename_i s
    obtain ⟨htable, hcells⟩ := dayStart_board s
    refine pinsFollowLinks_of_unlinked htable ?_ fun n => ?_
    · rw [cellsNumbered, hcells, List.map_map]
      exact h.2.1
    · rw [linkOf_of_map hcells fun _ => rfl]
      cases s.cell n <;> rfl
  release pins s := by
    have htape := requestAtZero_tape (s.powerOn (readStraps pins))
    have hcells : (powerOnReset pins s).cells = State.reset.cells := htape.cells
    refine pinsFollowLinks_of_unlinked htape.table (by rw [cellsNumbered, hcells]; decide) fun n => ?_
    rw [State.linkOf, State.cell, hcells]
    exact linkOf_reset n

/-- Settles O8: the law of the cell pins as a desk invariant. -/
theorem stepKeepsCellPins : Obligations.StepKeepsCellPins := fun _ _ h hst =>
  pinsFollowLinks_desk.step h hst

end Sys2Proof.Machine
end

section
/-!
PROOFS. The terminal references (R24, R168): a record's references are the showings and the watch entries
that name its symbol.
-/
namespace Sys2Proof.Machine

/-! ### The law of the references, over a table and the counts -/

/-- R20, R24: the symbols of the table are distinct, a record's references are n of its symbol, and a symbol
with a reference is held. -/
def refsLaw (n : Symbol → Nat) (table : List QuoteRecord) : Prop :=
  (table.map QuoteRecord.symbol).Nodup ∧ (∀ r ∈ table, r.refs = n r.symbol) ∧
  (∀ y, 0 < n y → ∃ r ∈ table, r.symbol = y)

section Law
variable {n n' : Symbol → Nat} {table table' : List QuoteRecord} {y : Symbol}

theorem refsLaw.congr (h : refsLaw n table) (he : ∀ y, n' y = n y) : refsLaw n' table := by
  rwa [show n' = n from funext he]

theorem refsLaw.of_perm (h : refsLaw n table) (hp : table'.Perm table) : refsLaw n table' := by
  obtain ⟨hd, hrefs, hheld⟩ := h
  refine ⟨(hp.map _).nodup_iff.2 hd, fun r hr => hrefs r (hp.subset hr), fun y hy => ?_⟩
  obtain ⟨r, hr, he⟩ := hheld y hy
  exact ⟨r, hp.symm.subset hr, he⟩

theorem refsLaw.moveToFront (h : refsLaw n table) (y : Symbol) : refsLaw n (moveToFront y table) :=
  h.of_perm (moveToFront_perm y h.1)

/-- A change of one symbol's record and count that keeps them in step. -/
theorem refsLaw.onRecord {f : QuoteRecord → QuoteRecord} (h : refsLaw n table)
    (hf : ∀ r, (f r).symbol = r.symbol) (hrefs : ∀ r ∈ table, r.symbol = y → (f r).refs = n' y)
    (hothers : ∀ z, z ≠ y → n' z = n z) (hheld : 0 < n' y → ∃ r ∈ table, r.symbol = y) :
    refsLaw n' (updateRecord y f table) := by
  obtain ⟨hd, hr, hh⟩ := h
  refine ⟨by rwa [updateRecord_symbols table hf], fun q hq => ?_, fun z hz => ?_⟩
  · obtain ⟨r, hmem, rfl⟩ := mem_updateRecord.1 hq
    split_ifs with hy
    · rw [hf, hy]
      exact hrefs r hmem hy
    · rw [hothers _ hy]
      exact hr r hmem
  · obtain ⟨r, hmem, he⟩ : ∃ r ∈ table, r.symbol = z := by
      by_cases hzy : z = y
      · subst hzy
        exact hheld hz
      · exact hh z (hothers z hzy ▸ hz)
    refine ⟨_, mem_updateRecord.2 ⟨r, hmem, rfl⟩, ?_⟩
    split_ifs <;> simp [hf, he]

/-- An update that keeps the references. -/
theorem refsLaw.onRecord_same {f : QuoteRecord → QuoteRecord} (h : refsLaw n table)
    (hf : ∀ r, (f r).symbol = r.symbol) (hrefs : ∀ r, (f r).refs = r.refs) :
    refsLaw n (updateRecord y f table) :=
  h.onRecord hf (fun r hr hy => by rw [hrefs, h.2.1 r hr, hy]) (fun _ _ => rfl) (h.2.2 y)

/-- R24: one reference more. -/
theorem refsLaw.addRef {f : QuoteRecord → QuoteRecord} (h : refsLaw n table)
    (hheld : ∃ r ∈ table, r.symbol = y) (hf : ∀ r, (f r).symbol = r.symbol)
    (hrefs : ∀ r, (f r).refs = r.refs + 1) (hn : ∀ z, n' z = n z + if z = y then 1 else 0) :
    refsLaw n' (updateRecord y f table) := by
  refine h.onRecord hf (fun r hr hy => ?_) (fun z hz => ?_) fun _ => hheld
  · rw [hrefs, h.2.1 r hr, hy, hn, if_pos rfl]
  · rw [hn, if_neg hz, Nat.add_zero]

/-- R24: one reference less. -/
theorem refsLaw.dropRef (h : refsLaw n table) (hn : ∀ z, n z = n' z + if z = y then 1 else 0) :
    refsLaw n' (updateRecord y QuoteRecord.dropRef table) := by
  have hy : n y = n' y + 1 := by rw [hn, if_pos rfl]
  refine h.onRecord (fun _ => rfl) (fun r hr he => ?_) (fun z hz => ?_) fun _ => h.2.2 y (by omega)
  · show r.refs - 1 = n' y
    rw [h.2.1 r hr, he, hy, Nat.add_sub_cancel]
  · rw [hn z, if_neg hz, Nat.add_zero]

/-- R22: what an eviction removes has no references. -/
theorem refsLaw.evict (h : refsLaw n table) : refsLaw n (evict table) := by
  rcases evict_cases table with ⟨he, -⟩ | ⟨before, r, after, rfl, hr, he⟩ <;> rw [he]
  · exact h
  · obtain ⟨hd, hrefs, hheld⟩ := h
    have hsub : (before ++ after).Sublist (before ++ r :: after) :=
      (List.Sublist.refl _).append (List.sublist_cons_self _ _)
    refine ⟨(hsub.map _).nodup hd, fun q hq => hrefs q (hsub.subset hq), fun y hy => ?_⟩
    obtain ⟨q, hq, hqy⟩ := hheld y hy
    have hne : q ≠ r := by
      rintro rfl
      have hzero := hrefs q hq
      rw [((pinned_eq_false q).1 hr).2, hqy] at hzero
      omega
    exact ⟨q, by simpa [hne] using hq, hqy⟩

/-- R21: an installed record has no references, and no terminal names its symbol. -/
theorem refsLaw.ensureHeld (h : refsLaw n table) (y : Symbol) : refsLaw n (ensureHeld y table) := by
  cases hr : findRecord y table with
  | some r => rwa [ensureHeld_of_held hr]
  | none =>
    rw [ensureHeld_of_absent hr]
    have habsent := findRecord_none.1 hr
    have hrest : refsLaw n (if table.length < 64 then table else Machine.evict table) ∧
        ∀ r ∈ (if table.length < 64 then table else Machine.evict table), r.symbol ≠ y := by
      split_ifs
      · exact ⟨h, habsent⟩
      · exact ⟨h.evict, fun r hr => habsent r ((evict_sublist table).subset hr)⟩
    have hzero : n y = 0 := by
      refine Nat.eq_zero_of_not_pos fun hpos => ?_
      obtain ⟨r, hr, hy⟩ := h.2.2 y hpos
      exact habsent r hr hy
    obtain ⟨⟨hd, hrefs, hheld⟩, hne⟩ := hrest
    refine ⟨?_, fun r hr => ?_, fun z hz => ?_⟩
    · refine List.nodup_cons.2 ⟨fun hmem => ?_, hd⟩
      obtain ⟨r, hr, hy⟩ := List.mem_map.1 hmem
      exact hne r hr hy
    · rcases List.mem_cons.1 hr with rfl | hr
      · exact hzero.symm
      · exact hrefs r hr
    · obtain ⟨r, hr, he⟩ := hheld z hz
      exact ⟨r, List.mem_cons_of_mem _ hr, he⟩

theorem refsLaw.of_ties (h : refsLaw n table)
    (ht : table'.map QuoteRecord.ties = table.map QuoteRecord.ties) : refsLaw n table' := by
  obtain ⟨hd, hrefs, hheld⟩ := h
  have hsymbols : ∀ l : List QuoteRecord, l.map QuoteRecord.symbol = (l.map QuoteRecord.ties).map Prod.fst := by
    intro l
    rw [List.map_map]
    rfl
  refine ⟨by rwa [hsymbols, ht, ← hsymbols], fun r hr => ?_, fun y hy => ?_⟩
  · obtain ⟨q, hq, he⟩ := List.mem_map.1 (ht ▸ List.mem_map.2 ⟨r, hr, rfl⟩)
    obtain ⟨hsym, -, hrf⟩ : q.symbol = r.symbol ∧ q.pins = r.pins ∧ q.refs = r.refs := by
      simpa [QuoteRecord.ties] using he
    rw [← hsym, ← hrf]
    exact hrefs q hq
  · obtain ⟨q, hq, he⟩ := hheld y hy
    obtain ⟨r, hr, hrq⟩ := List.mem_map.1 (ht ▸ List.mem_map.2 ⟨q, hq, rfl⟩ : q.ties ∈ table'.map _)
    exact ⟨r, hr, (congrArg Prod.fst hrq).trans he⟩

end Law

/-! ### One terminal's references (R24) -/

theorem refsOn_eq (y : Symbol) (m : Terminal) : m.refsOn y =
    (if m.shown = some y then 1 else 0) + (m.watch.map WatchEntry.symbol).count y := by
  rw [Terminal.refsOn, List.count, List.countP_map, List.countP_eq_length_filter]
  rfl

/-- The table and terminal m agree, the other terminals having `rest` on each symbol. -/
def Terminal.refsKept (rest : Symbol → Nat) (table : List QuoteRecord) (m : Terminal) : Prop :=
  refsLaw (fun y => m.refsOn y + rest y) table ∧ (m.watch.map WatchEntry.symbol).Nodup

section Terminal
variable {rest : Symbol → Nat} {table : List QuoteRecord} {m x : Terminal} {y z : Symbol}

/-- A terminal that shows and watches the same symbols. -/
theorem Terminal.refsKept.congr (h : m.refsKept rest table) (hs : x.shown = m.shown)
    (hw : x.watch.map WatchEntry.symbol = m.watch.map WatchEntry.symbol) : x.refsKept rest table := by
  refine ⟨h.1.congr fun y => ?_, by rw [hw]; exact h.2⟩
  rw [refsOn_eq, refsOn_eq, hs, hw]

/-- A symbol shown is held. -/
theorem Terminal.refsKept.held_shown (h : m.refsKept rest table) (hy : m.shown = some y) :
    ∃ r ∈ table, r.symbol = y := by
  refine h.1.2.2 y ?_
  show 0 < m.refsOn y + rest y
  rw [refsOn_eq, if_pos hy]
  omega

/-- A symbol watched is held. -/
theorem Terminal.refsKept.held_watched (h : m.refsKept rest table)
    (hy : y ∈ m.watch.map WatchEntry.symbol) : ∃ r ∈ table, r.symbol = y := by
  refine h.1.2.2 y ?_
  have hpos := List.count_pos_iff.2 hy
  show 0 < m.refsOn y + rest y
  rw [refsOn_eq]
  omega

/-- R24, R26: a terminal begins to show a symbol held. -/
theorem Terminal.refsKept.begin_showing {f : QuoteRecord → QuoteRecord} (h : m.refsKept rest table)
    (hm : m.shown = none) (hx : x.shown = some y) (hw : x.watch = m.watch)
    (hheld : ∃ r ∈ table, r.symbol = y) (hf : ∀ r, (f r).symbol = r.symbol := by intro _; rfl)
    (hrefs : ∀ r, (f r).refs = r.refs + 1 := by intro _; rfl) :
    x.refsKept rest (Machine.moveToFront y (updateRecord y f table)) := by
  refine ⟨(h.1.addRef hheld hf hrefs fun z => ?_).moveToFront y, by rw [hw]; exact h.2⟩
  rw [refsOn_eq, refsOn_eq, hm, hx, hw]
  by_cases hz : z = y
  · simp [hz]
    omega
  · simp [hz, Ne.symm hz]

/-- R24: a terminal stops showing a symbol. -/
theorem Terminal.refsKept.end_showing (h : m.refsKept rest table) (hm : m.shown = some y)
    (hx : x.shown = none) (hw : x.watch = m.watch) :
    x.refsKept rest (updateRecord y QuoteRecord.dropRef table) := by
  refine ⟨h.1.dropRef fun z => ?_, by rw [hw]; exact h.2⟩
  rw [refsOn_eq, refsOn_eq, hm, hx, hw]
  by_cases hz : z = y
  · simp [hz]
    omega
  · simp [hz, Ne.symm hz]

/-- R168: a watch entry joins a terminal's list. -/
theorem Terminal.refsKept.add_watch (h : m.refsKept rest table) {e : WatchEntry} (hs : x.shown = m.shown)
    (hx : x.watch = m.watch ++ [e]) (hnew : e.symbol ∉ m.watch.map WatchEntry.symbol)
    (hheld : ∃ r ∈ table, r.symbol = e.symbol) :
    x.refsKept rest (updateRecord e.symbol QuoteRecord.addRef table) := by
  refine ⟨h.1.addRef (f := QuoteRecord.addRef) hheld (fun _ => rfl) (fun _ => rfl) fun z => ?_, ?_⟩
  · rw [refsOn_eq, refsOn_eq, hs, hx, List.map_append, List.count_append]
    by_cases hz : z = e.symbol
    · simp [hz]
      omega
    · simp [hz, Ne.symm hz]
  · rw [hx, List.map_append]
    exact List.Nodup.append h.2 (List.nodup_singleton _) (by simpa using hnew)

/-- R170: a watch entry leaves a terminal's list. -/
theorem Terminal.refsKept.drop_watch (h : m.refsKept rest table) (hs : x.shown = m.shown)
    (hx : x.watch = m.watch.filter (fun e => e.symbol != y)) (hy : y ∈ m.watch.map WatchEntry.symbol) :
    x.refsKept rest (updateRecord y QuoteRecord.dropRef table) := by
  have hmap : x.watch.map WatchEntry.symbol = (m.watch.map WatchEntry.symbol).filter (fun z => z != y) := by
    rw [hx, List.filter_map]
    rfl
  refine ⟨h.1.dropRef fun z => ?_, ?_⟩
  · rw [refsOn_eq, refsOn_eq, hs, hmap]
    by_cases hz : z = y
    · rw [hz, List.count_eq_one_of_mem h.2 hy, List.count_eq_zero_of_not_mem (by simp), if_pos rfl]
      omega
    · rw [List.count_filter (by simpa using hz), if_neg hz]
      rfl
  · rw [hmap]
    exact h.2.filter _

end Terminal

/-! ### Keys at a terminal (R144 to R152, R168 to R171) -/

/-- Terminal u of s and the table of s agree, the other terminals having `rest` on each symbol. -/
def State.refsAt (s : State) (u : Fin 4) (rest : Symbol → Nat) : Prop := (s.term u).refsKept rest s.table

section Keys
variable {u : Fin 4} {s : State} {rest : Symbol → Nat} {y : Symbol}

/-- A change of terminal u that leaves what it shows and watches. -/
theorem State.refsAt.onTerm {f : Terminal → Terminal} (h : s.refsAt u rest)
    (hs : ∀ m : Terminal, (f m).shown = m.shown := by intro _; rfl)
    (hw : ∀ m : Terminal, (f m).watch.map WatchEntry.symbol = m.watch.map WatchEntry.symbol := by
      intro _; rfl) : (s.onTerm u f).refsAt u rest := by
  rw [State.refsAt, State.term_onTerm_self]
  exact h.congr (hs _) (hw _)

theorem rejectBeep_refsAt (h : s.refsAt u rest) : (rejectBeep u s).refsAt u rest :=
  h.onTerm (f := Terminal.beep 2)

theorem keyIdle_refsAt (k : Key) (h : s.refsAt u rest) : (keyIdle u k s).refsAt u rest := by
  cases k
  case letter l => exact h.onTerm (f := fun m => { m with entry := [l], state := .keying })
  all_goals exact h

theorem quoteEntry_refsAt (y : Symbol) (hs : (s.term u).shown = none) (h : s.refsAt u rest) :
    (quoteEntry u y s).refsAt u rest := by
  unfold quoteEntry
  split_ifs with hheld
  · rw [State.refsAt, showEntry, State.term_onTerm_self]
    exact Terminal.refsKept.begin_showing (f := QuoteRecord.addRef) h hs rfl rfl ((held_iff y s.table).1 hheld)
  · exact h.onTerm
  · exact h.onTerm
  · exact State.refsAt.onTerm (s := (s.withAskTag (s.askTag + 1)).appendGeneral 0 _)
      (f := fun m => { m with ask := _, state := .asking }) h

theorem keyKeying_refsAt (k : Key) (hs : (s.term u).shown = none) (h : s.refsAt u rest) :
    (keyKeying u k s).refsAt u rest := by
  cases k
  case letter l =>
    unfold keyKeying
    split_ifs
    · exact h.onTerm
    · exact rejectBeep_refsAt h
  case rub => exact h.onTerm (f := Terminal.rubLetter)
  case clear => exact h.onTerm (f := fun m => { m with entry := [], state := .idle })
  case quote => exact quoteEntry_refsAt _ hs h
  all_goals exact rejectBeep_refsAt h

theorem watches_iff (y : Symbol) (m : Terminal) :
    m.watches y = true ↔ y ∈ m.watch.map WatchEntry.symbol := by
  simp [Terminal.watches]

theorem addWatch_refsAt {e : WatchEntry} (h : s.refsAt u rest) (hnew : (s.term u).watches e.symbol = false)
    (hheld : ∃ r ∈ s.table, r.symbol = e.symbol) : (addWatch u e s).refsAt u rest := by
  rw [State.refsAt, addWatch, State.term_onTerm_self]
  refine h.add_watch rfl rfl (fun hmem => ?_) hheld
  exact Bool.eq_false_iff.1 hnew ((watches_iff _ _).2 hmem)

theorem stopShowing_refsAt (hy : (s.term u).shown = some y) (h : s.refsAt u rest) :
    (stopShowing u s).refsAt u rest := by
  simp only [stopShowing, hy]
  rw [State.refsAt, State.term_onTerm_self]
  exact h.end_showing hy rfl rfl

theorem nextTarget_mem {z : Symbol} {watch : List WatchEntry} (h : nextTarget y watch = some z) :
    z ∈ watch.map WatchEntry.symbol := by
  unfold nextTarget at h
  split at h
  · next e es heq =>
    obtain rfl := Option.some.inj h
    have hmem : ∀ x ∈ watch.dropWhile (fun e => e.symbol != y), x ∈ watch := fun x hx =>
      (List.dropWhile_sublist _).subset hx
    rw [heq] at hmem
    exact List.mem_map.2 ⟨e, hmem e (by simp), rfl⟩
  · obtain ⟨e, he, rfl⟩ := Option.map_eq_some_iff.1 h
    exact List.mem_map.2 ⟨e, List.mem_of_mem_head? he, rfl⟩

theorem nextShown_refsAt (hy : (s.term u).shown = some y) (h : s.refsAt u rest) :
    (nextShown u y s).refsAt u rest := by
  unfold nextShown
  split
  · exact rejectBeep_refsAt h
  · next target ht =>
    split_ifs
    · exact h
    · have hend : ({ s.term u with shown := none } : Terminal).refsKept rest
          (updateRecord y QuoteRecord.dropRef s.table) := h.end_showing hy rfl rfl
      have hheld : ∃ r ∈ updateRecord y QuoteRecord.dropRef s.table, r.symbol = target := by
        obtain ⟨r, hr, he⟩ := h.held_watched (nextTarget_mem ht)
        refine ⟨_, mem_updateRecord.2 ⟨r, hr, rfl⟩, ?_⟩
        split_ifs <;> exact he
      rw [State.refsAt, State.term_onTerm_self]
      exact hend.begin_showing (f := QuoteRecord.addRef) rfl rfl rfl hheld

theorem keyShowing_refsAt (k : Key) (hy : (s.term u).shown = some y) (h : s.refsAt u rest) :
    (keyShowing u k y s).refsAt u rest := by
  have hheld := Terminal.refsKept.held_shown h hy
  cases k
  case letter l =>
    exact (stopShowing_refsAt hy h).onTerm (f := fun m => { m with entry := [l], state := .keying })
  case clear => exact (stopShowing_refsAt hy h).onTerm (f := fun m => { m with entry := [], state := .idle })
  case quote => exact h
  case watch =>
    show (watchShown u y s).refsAt u rest
    unfold watchShown
    split_ifs with hw
    · exact rejectBeep_refsAt h
    · exact rejectBeep_refsAt h
    · exact addWatch_refsAt h (Bool.eq_false_iff.2 hw) hheld
  case unwatch =>
    show (unwatchShown u y s).refsAt u rest
    unfold unwatchShown
    split_ifs with hw
    · rw [State.refsAt, State.term_onTerm_self]
      exact h.drop_watch rfl rfl ((watches_iff _ _).1 hw)
    · exact rejectBeep_refsAt h
  case next => exact nextShown_refsAt hy h
  case limit =>
    exact h.onTerm (f := fun m => { m with whole := [], fracMark := false, eighths := none, state := .limitEntry })
  all_goals exact rejectBeep_refsAt h

theorem arm_watch_symbols (y : Symbol) (l : Limit) (m : Terminal) :
    (m.arm y l).watch.map WatchEntry.symbol = m.watch.map WatchEntry.symbol := by
  rw [Terminal.arm, List.map_map]
  refine List.map_congr_left fun e _ => ?_
  show (if e.symbol = y then { e with limit := some l } else e).symbol = e.symbol
  split_ifs <;> rfl

theorem commitLimit_refsAt (p : Nat) (hy : (s.term u).shown = some y) (h : s.refsAt u rest) :
    (commitLimit u y p s).refsAt u rest := by
  unfold commitLimit
  split
  · exact rejectBeep_refsAt h
  · split_ifs with _ hw
    · exact rejectBeep_refsAt h
    · exact h.onTerm (f := Terminal.arm y _) (fun _ => rfl) (arm_watch_symbols y _)
    · exact rejectBeep_refsAt h
    · exact addWatch_refsAt h (Bool.eq_false_iff.2 hw) (Terminal.refsKept.held_shown h hy)

theorem keyLimitEntry_refsAt (k : Key) (hy : (s.term u).shown = some y) (h : s.refsAt u rest) :
    (keyLimitEntry u k y s).refsAt u rest := by
  cases k
  case digit d =>
    show (limitDigit u d s).refsAt u rest
    unfold limitDigit
    split_ifs
    · exact rejectBeep_refsAt h
    · exact h.onTerm
    · exact rejectBeep_refsAt h
    · exact h.onTerm
    · exact rejectBeep_refsAt h
  case fraction =>
    unfold keyLimitEntry
    split_ifs
    · exact rejectBeep_refsAt h
    · exact h.onTerm
  case rub =>
    show (limitRub u s).refsAt u rest
    unfold limitRub
    split_ifs
    · exact h.onTerm
    · exact h.onTerm
    · exact rejectBeep_refsAt h
    · exact h.onTerm
  case quote =>
    show (limitQuote u y s).refsAt u rest
    unfold limitQuote
    split_ifs
    · exact (commitLimit_refsAt _ hy h).onTerm
    · exact rejectBeep_refsAt h
  case clear => exact h.onTerm (f := Terminal.leaveLimit)
  all_goals exact rejectBeep_refsAt h

theorem abandonAsk_refsAt (h : s.refsAt u rest) : (abandonAsk u s).refsAt u rest := by
  have htable : (abandonAsk u s).table = s.table := by
    show (endAsk u s).table = s.table
    unfold endAsk
    split <;> rfl
  rw [State.refsAt, abandonAsk_term, htable]
  exact h.congr rfl rfl

/-- A taken key keeps the references of its terminal in step with the table. -/
theorem takeKey_refsAt (k : Key) (hk : (s.term u).wellKept) (h : s.refsAt u rest) :
    (takeKey u k s).refsAt u rest := by
  have hhush : (s.onTerm u Terminal.hush).refsAt u rest := h.onTerm
  have hkept : ((s.onTerm u Terminal.hush).term u).wellKept := wellKept_onTerm rfl hk
  unfold takeKey
  generalize s.onTerm u Terminal.hush = v at hhush hkept
  unfold keyOrAcknowledge
  split_ifs
  · exact hhush.onTerm
  · unfold keyByState
    split
    · exact keyIdle_refsAt k hhush
    · have hst : (v.term u).state = .keying := ‹_›
      refine keyKeying_refsAt k (Option.not_isSome_iff_eq_none.1 fun hs => ?_) hhush
      have hshown := hkept.2.1.1 hs
      rw [hst] at hshown
      simp at hshown
    · split_ifs
      · exact abandonAsk_refsAt hhush
      · exact hhush
    · exact keyShowing_refsAt k ‹_› hhush
    · exact keyLimitEntry_refsAt k ‹_› hhush
    · exact hhush
    · exact hhush

end Keys

/-! ### The law over the whole desk -/

/-- The references that the terminals other than u have. -/
def State.restOn (s : State) (u : Fin 4) : Symbol → Nat := (s.setTerm u Terminal.atReset).refsOn

theorem refsOn_eq_term_add (s : State) (u : Fin 4) (y : Symbol) :
    s.refsOn y = (s.term u).refsOn y + s.restOn u y := by
  have hblank : Terminal.atReset.refsOn y = 0 := rfl
  match u with
  | 0 | 1 | 2 | 3 =>
    show _ = _ + (_ + _ + _ + _)
    simp only [State.refsOn, State.setTerm, State.term, State.withTerminals_terminals, Quad.set, Quad.get,
      hblank]
    omega

theorem restOn_of_others {s t : State} {u : Fin 4} (ho : ∀ v, v ≠ u → t.term v = s.term v) :
    t.restOn u = s.restOn u := by
  have hterm : ∀ v, (t.setTerm u Terminal.atReset).term v = (s.setTerm u Terminal.atReset).term v := by
    intro v
    by_cases hv : v = u
    · rw [hv, State.term_setTerm_self, State.term_setTerm_self]
    · rw [State.term_setTerm_of_ne _ _ hv, State.term_setTerm_of_ne _ _ hv, ho v hv]
  funext y
  simp only [State.restOn, State.refsOn, hterm]

/-- R135: an inactive terminal is in IDLE and watches nothing. -/
def State.inactiveIdle (s : State) : Prop :=
  ∀ u : Fin 4, s.active u = false → (s.term u).state = .idle ∧ (s.term u).watch = []

theorem refsFollowTerminals_iff (s : State) : refsFollowTerminals s ↔
    terminalsWellKept s ∧ refsLaw s.refsOn s.table ∧
      (∀ u : Fin 4, ((s.term u).watch.map WatchEntry.symbol).Nodup) ∧ s.inactiveIdle := by
  simp only [refsFollowTerminals, refsLaw, symbolsDistinct, held_iff, State.inactiveIdle]
  tauto

/-- A change of the table and of terminal u alone that keeps the two in step. -/
theorem refsFollowTerminals_of_others {u : Fin 4} {s t : State} (h : refsFollowTerminals s)
    (ha : t.active = s.active) (ho : ∀ v, v ≠ u → t.term v = s.term v) (hk : (t.term u).wellKept)
    (hu : s.refsAt u (s.restOn u) → t.refsAt u (s.restOn u))
    (hoff : s.active u = false → (t.term u).state = .idle ∧ (t.term u).watch = []) :
    refsFollowTerminals t := by
  rw [refsFollowTerminals_iff] at h ⊢
  obtain ⟨hkept, hlaw, hnodup, hidle⟩ := h
  obtain ⟨hlaw', hnodup'⟩ := hu ⟨hlaw.congr fun y => (refsOn_eq_term_add s u y).symm, hnodup u⟩
  refine ⟨terminalsWellKept_of_others ho hkept hk, hlaw'.congr fun y => ?_, fun v => ?_, fun v hv => ?_⟩
  · rw [refsOn_eq_term_add t u, restOn_of_others ho]
  · by_cases hvu : v = u
    · rwa [hvu]
    · rw [ho v hvu]
      exact hnodup v
  · rw [ha] at hv
    by_cases hvu : v = u
    · rw [hvu] at hv ⊢
      exact hoff hv
    · rw [ho v hvu]
      exact hidle v hv

/-- A change that leaves the terminals and keeps the table's references. -/
theorem refsFollowTerminals_of_table {s t : State} (h : refsFollowTerminals s) (ha : t.active = s.active)
    (ht : t.terminals = s.terminals) (hlaw : refsLaw s.refsOn s.table → refsLaw s.refsOn t.table) :
    refsFollowTerminals t := by
  have hterm : t.term = s.term := by
    funext u
    rw [State.term, State.term, ht]
  have hrefs : t.refsOn = s.refsOn := by
    funext y
    simp only [State.refsOn, hterm]
  rw [refsFollowTerminals_iff] at h ⊢
  obtain ⟨hkept, hl, hnodup, hidle⟩ := h
  refine ⟨fun u => by rw [hterm]; exact hkept u, by rw [hrefs]; exact hlaw hl,
    fun u => by rw [hterm]; exact hnodup u, fun u hu => ?_⟩
  rw [hterm]
  exact hidle u (by rwa [ha] at hu)

/-- R39: the references after a matching Answer. -/
theorem answeredBy_refsAt {m : AnswerMsg} {s : State} {rest : Symbol → Nat} (hm : answerMatches m s = true)
    (hk : (s.term m.terminal).wellKept) (h : s.refsAt m.terminal rest) :
    ((s.withKeys m.terminal []).answeredBy m).refsAt m.terminal rest := by
  obtain ⟨-, hst, a, ha, -, -⟩ := (answerMatches_iff m s).1 hm
  obtain ⟨r, hr⟩ := exists_ensureHeld m.symbol s.table
  have hshown : (s.term m.terminal).shown = none := by
    refine Option.not_isSome_iff_eq_none.1 fun hs => ?_
    have := hk.2.1.1 hs
    rw [hst] at this
    simp at this
  have hheld : (s.term m.terminal).refsKept rest (ensureHeld m.symbol s.table) :=
    ⟨h.1.ensureHeld m.symbol, h.2⟩
  rw [answeredBy_withKeys ha, answeredBy_eq ha hr]
  refine State.refsAt.onTerm (f := fun m => { m with keyQueue := [] }) ?_
  show Terminal.refsKept rest (r.answered m :: _) (Quad.get (Quad.set _ _ _) _)
  rw [Quad.get_set_self, ← moveToFront_updateRecord (f := QuoteRecord.answered m) (fun _ => rfl) hr]
  exact hheld.begin_showing hshown rfl rfl ((held_iff _ _).1 (findRecord_ensureHeld _ _))

/-- The references kept by a key, a matching Answer and its typeahead at terminal u. -/
theorem drainKeys_refsAt {u : Fin 4} {s : State} {rest : Symbol → Nat} (n : Nat) {ks : List Key}
    (hk : (s.term u).wellKept) (h : s.refsAt u rest) (hq : (s.term u).keyQueue = []) (hn : ks.length ≤ n) :
    (drainKeys u n (s.withKeys u ks)).refsAt u rest := by
  obtain ⟨v, ks', ⟨-, hv⟩, -, heq, -, -⟩ := drainKeys_reaches
    (P := fun v => (v.term u).wellKept ∧ v.refsAt u rest)
    (fun v k hv _ _ => ⟨takeKey_wellKept k hv.1, takeKey_refsAt k hv.1 hv.2⟩) n ⟨hk, h⟩ hq hn
  rw [heq]
  exact hv.onTerm

theorem offerKey_refsAt {u : Fin 4} {s : State} {rest : Symbol → Nat} (k : Key) (hk : (s.term u).wellKept)
    (h : s.refsAt u rest) : (offerKey u k s).refsAt u rest := by
  unfold offerKey
  split_ifs with ha hfull hst hc
  · exact State.refsAt.onTerm (s := s.count .keysAlertsDropped) (f := Terminal.beep 2) h
  · exact takeKey_refsAt k hk h
  · exact h.onTerm
  · have hempty : (s.term u).keyQueue = [] := hk.2.2.1 hst
    have hput : enqueueKey u k s = s.withKeys u [k] := by
      rw [enqueueKey, State.onTerm_eq, hempty]
      rfl
    rw [hput]
    exact drainKeys_refsAt _ hk h hempty (by simp [Config.keyQueueSize])
  · exact h

theorem fire_watch_symbols (y : Symbol) (p : Nat) (d : Direction) (m : Terminal) :
    (m.fire y p d).watch.map WatchEntry.symbol = m.watch.map WatchEntry.symbol := by
  show List.map WatchEntry.symbol (m.watch.map _) = _
  rw [List.map_map]
  refine List.map_congr_left fun e _ => ?_
  show (if e.symbol = y then { e with limit := none } else e).symbol = e.symbol
  split_ifs <;> rfl

/-- R38: a cell unlinked changes no references. -/
theorem unlinkTable_refsLaw (cell : Fin 16) (old : Option Symbol) {n : Symbol → Nat}
    {table : List QuoteRecord} (h : refsLaw n table) : refsLaw n (unlinkTable cell old table) := by
  unfold unlinkTable
  split
  · exact h.onRecord_same (fun _ => rfl) fun _ => rfl
  · exact h

/-- R36, R37: a Plan changes no references. -/
theorem planTable_refsLaw (m : PlanMsg) (old : Option Symbol) {n : Symbol → Nat} {table : List QuoteRecord}
    (h : refsLaw n table) : refsLaw n (planTable m old table) := by
  have hties : ∀ (ref : Option Nat) (r : QuoteRecord),
      (r.withReference ref).symbol = r.symbol ∧ (r.withReference ref).refs = r.refs := fun ref r => by
    rw [withReference_eq]
    exact ⟨rfl, rfl⟩
  have hunlinked := unlinkTable_refsLaw m.cell old h
  unfold planTable
  split_ifs
  · split
    · exact h.onRecord_same (fun r => (hties _ r).1) fun r => (hties _ r).2
    · exact h
  · split
    · exact hunlinked
    · exact (hunlinked.ensureHeld _).onRecord_same (fun r => (hties _ _).1) fun r => (hties _ _).2

/-- With an empty table and terminals that show and watch nothing there is nothing to keep. -/
theorem refsFollowTerminals_of_blank {t : State} (htable : t.table = []) (hk : terminalsWellKept t)
    (hblank : ∀ u, (t.term u).state = .idle ∧ (t.term u).shown = none ∧ (t.term u).watch = []) :
    refsFollowTerminals t := by
  have hzero : ∀ u y, (t.term u).refsOn y = 0 := fun u y => by
    rw [refsOn_eq, (hblank u).2.1, (hblank u).2.2]
    rfl
  rw [refsFollowTerminals_iff, htable]
  refine ⟨hk, ⟨List.nodup_nil, fun r hr => absurd hr List.not_mem_nil, fun y hy => ?_⟩, fun u => ?_,
    fun u _ => ⟨(hblank u).1, (hblank u).2.2⟩⟩
  · simp only [State.refsOn, hzero] at hy
    exact absurd hy (Nat.lt_irrefl 0)
  · rw [(hblank u).2.2]
    exact List.nodup_nil

/-- The law of the terminal references is one of the desk's invariants. -/
theorem refsFollowTerminals_desk : DeskInvariant refsFollowTerminals where
  congr := fun ⟨htable, _, hterms, hstraps⟩ h =>
    refsFollowTerminals_of_table h (funext (active_of_straps hstraps)) hterms (by rw [htable]; exact id)
  records table ht h := refsFollowTerminals_of_table h rfl rfl fun hl => hl.of_ties ht
  cells _ _ h := h
  faces q hq h := by
    rename_i s
    rw [refsFollowTerminals_iff] at h ⊢
    obtain ⟨hkept, hl, hnodup, hidle⟩ := h
    have hsame : ∀ u, (q.get u).state = (s.term u).state ∧ (q.get u).shown = (s.term u).shown ∧
        (q.get u).watch = (s.term u).watch := fun u => by
      rw [hq u]
      exact ⟨rfl, rfl, rfl⟩
    have hrefs : ∀ u y, (q.get u).refsOn y = (s.term u).refsOn y := fun u y => by
      rw [Terminal.refsOn, (hsame u).2.1, (hsame u).2.2]
      rfl
    refine ⟨fun u => (hq u).wellKept (hkept u), hl.congr fun y => ?_, fun u => ?_, fun u hu => ?_⟩
    · show (q.get 0).refsOn y + (q.get 1).refsOn y + (q.get 2).refsOn y + (q.get 3).refsOn y = _
      simp only [hrefs]
      rfl
    · show ((q.get u).watch.map _).Nodup
      rw [(hsame u).2.2]
      exact hnodup u
    · exact ⟨(hsame u).1.trans (hidle u hu).1, (hsame u).2.2.trans (hidle u hu).2⟩
  key u k hr h := by
    rename_i s
    have hscan := offerKey_scan u s k
    have hkept : (s.term u).wellKept := h.2.1 u
    refine refsFollowTerminals_of_others h (funext (active_of_straps hscan.straps)) hscan.others
      (offerKey_wellKept k hkept) (offerKey_refsAt k hkept) fun ha => ?_
    rw [offerKey, if_neg (Bool.eq_false_iff.1 ha)]
    exact h.2.2.2.2.2 u ha
  timeout u h := by
    rename_i s
    obtain ⟨line, tallies, heq, -⟩ := timeoutAsk_eq u s
    have hkept := terminalsWellKept_desk.timeout u h.2.1
    have hsame : (s.afterTimeout u).shown = (s.term u).shown ∧ (s.afterTimeout u).watch = (s.term u).watch := by
      unfold State.afterTimeout
      split_ifs <;> exact ⟨rfl, rfl⟩
    have hterm : (timeoutAsk u s).term u = s.afterTimeout u := by
      rw [heq]
      exact Quad.get_set_self _ _ _
    refine refsFollowTerminals_of_others h (by rw [heq]; rfl) (timeoutAsk_scan u s).others (hkept u)
      (fun hu => ?_) fun ha => ?_
    · rw [State.refsAt, hterm, heq]
      exact hu.congr hsame.1 (by rw [hsame.2])
    · obtain ⟨hidle, hwatch⟩ := h.2.2.2.2.2 u ha
      rw [hterm, hsame.2]
      refine ⟨?_, hwatch⟩
      unfold State.afterTimeout
      split_ifs
      · rfl
      · exact hidle
  fire y p u h := by
    rename_i s
    rcases fireAt_cases s y p u with e | ⟨l, -, ha, -, e⟩
    · rwa [e]
    · have hkept := terminalsWellKept_desk.fire y p u h.2.1
      rw [e] at hkept ⊢
      have hbase : ∀ t : State, t = s ∨ t = s.count .keysAlertsDropped → s.refsAt u (s.restOn u) →
          (t.onTerm u (Terminal.fire y p l.direction)).refsAt u (s.restOn u) := by
        intro t ht hu
        have ht' : t.refsAt u (s.restOn u) := by rcases ht with rfl | rfl <;> exact hu
        exact ht'.onTerm (fun _ => rfl) (fire_watch_symbols y p l.direction)
      refine refsFollowTerminals_of_others (u := u) h ?_ (fun v hv => ?_) (hkept u) (hbase _ ?_) fun hoff => ?_
      · split_ifs <;> rfl
      · rw [State.term_onTerm_of_ne _ _ hv]
        split_ifs <;> rfl
      · split_ifs
        · exact .inr rfl
        · exact .inl rfl
      · rw [ha] at hoff
        cases hoff
  plan m h := by
    rename_i s
    refine refsFollowTerminals_of_table h rfl rfl fun hl => ?_
    show refsLaw s.refsOn (planTable m (s.linkOf m.cell) s.table)
    exact planTable_refsLaw m _ hl
  answer m hr h := by
    rename_i s
    by_cases hm : answerMatches m s = true
    · have hkept := h.2.1 m.terminal
      have hqueue : (s.term m.terminal).keyQueue.length ≤ 4 := hkept.2.2.2.1
      obtain ⟨hactive, -⟩ := (answerMatches_iff m s).1 hm
      refine refsFollowTerminals_of_others (u := m.terminal) h
        (funext (active_of_straps (takeAnswer_desk s m).straps)) takeAnswer_others
        (takeAnswer_wellKept hkept) (fun hu => ?_) fun hoff => ?_
      · rw [takeAnswer_of_match hm, answeredBy_split hm]
        exact drainKeys_refsAt 4 (answeredBy_wellKept hm hkept) (answeredBy_refsAt hm hkept hu)
          (answeredBy_keyQueue hm) hqueue
      · rw [hactive] at hoff
        cases hoff
    · rw [takeAnswer, if_neg hm]
      exact h
  restart h := by
    rename_i s
    refine refsFollowTerminals_of_blank (dayStart_board s).1 (terminalsWellKept_desk.restart h.2.1) fun u => ?_
    rw [dayStart_terms]
    split_ifs with ha
    · exact ⟨rfl, rfl, rfl⟩
    · obtain ⟨hidle, hwatch⟩ := h.2.2.2.2.2 u (Bool.eq_false_iff.2 ha)
      refine ⟨hidle, Option.not_isSome_iff_eq_none.1 fun hs => ?_, hwatch⟩
      have := (h.2.1 u).2.1.1 hs
      rw [hidle] at this
      simp at this
  release pins s := by
    refine refsFollowTerminals_of_blank (requestAtZero_tape (s.powerOn (readStraps pins))).table
      (terminalsWellKept_desk.release pins s) fun u => ?_
    rw [powerOnReset_term]
    exact ⟨rfl, rfl, rfl⟩

/-- Settles O9: the law of the terminal references as a desk invariant. -/
theorem stepKeepsTerminalRefs : Obligations.StepKeepsTerminalRefs := fun _ _ h hst =>
  refsFollowTerminals_desk.step h hst

end Sys2Proof.Machine
end

section
/-!
PROOFS. The size of the quote table (R20, R25): an installation in a table of 64 records finds one to evict,
since the cells and the terminals pin at most 44.
-/
namespace Sys2Proof.Machine

/-! ### What the terminals name -/

/-- The symbols a terminal shows or watches. -/
def Terminal.named (m : Terminal) : List Symbol := m.shown.toList ++ m.watch.map WatchEntry.symbol

/-- The symbols the four terminals show or watch. -/
def State.named (s : State) : List Symbol :=
  (s.term 0).named ++ (s.term 1).named ++ (s.term 2).named ++ (s.term 3).named

theorem Terminal.mem_named {m : Terminal} {y : Symbol} (h : 0 < m.refsOn y) : y ∈ m.named := by
  rw [refsOn_eq] at h
  rw [Terminal.named, List.mem_append, Option.mem_toList]
  by_cases hs : m.shown = some y
  · exact .inl hs
  · rw [if_neg hs, Nat.zero_add] at h
    exact .inr (List.count_pos_iff.1 h)

theorem State.mem_named {s : State} {y : Symbol} (h : 0 < s.refsOn y) : y ∈ s.named := by
  have hsome : 0 < (s.term 0).refsOn y ∨ 0 < (s.term 1).refsOn y ∨ 0 < (s.term 2).refsOn y ∨
      0 < (s.term 3).refsOn y := by
    rw [State.refsOn] at h
    omega
  simp only [State.named, List.mem_append, or_assoc]
  exact hsome.imp Terminal.mem_named (.imp Terminal.mem_named (.imp Terminal.mem_named Terminal.mem_named))

/-- R168: a terminal shows one symbol and watches six. -/
theorem Terminal.named_length {m : Terminal} (h : m.wellKept) : m.named.length ≤ 7 := by
  have hwatch : m.watch.length ≤ 6 := h.2.2.2.2.2.2.1
  have hshown : m.shown.toList.length ≤ 1 := by cases m.shown <;> simp
  rw [Terminal.named, List.length_append, List.length_map]
  omega

theorem State.named_length {s : State} (h : terminalsWellKept s) : s.named.length ≤ 28 := by
  have h0 := Terminal.named_length (h 0)
  have h1 := Terminal.named_length (h 1)
  have h2 := Terminal.named_length (h 2)
  have h3 := Terminal.named_length (h 3)
  simp only [State.named, List.length_append]
  omega

/-! ### The size of a table (R21, R22) -/

section Table
variable {links : Fin 16 → Option Symbol} {n : Symbol → Nat} {table table' : List QuoteRecord}
  {named : List Symbol}

theorem length_of_pinsKept (h : pinsKept table table') (hd : (table.map QuoteRecord.symbol).Nodup) :
    table'.length = table.length := by
  simpa using (h hd).length_eq

/-- A record that is pinned is linked to a cell or named at a terminal. -/
theorem mem_of_pinned {r : QuoteRecord} (hp : pinsLaw links table) (hn : refsLaw n table)
    (hnamed : ∀ y, 0 < n y → y ∈ named) (hr : r ∈ table) (hpin : r.pinned = true) :
    r.symbol ∈ cellNumbers.filterMap links ++ named := by
  rw [List.mem_append]
  rcases (pinned_iff r).1 hpin with hpins | hrefs
  · obtain ⟨c, hc⟩ := List.exists_mem_of_ne_nil _ hpins
    exact .inl (List.mem_filterMap.2 ⟨c, mem_cellNumbers c, (hp.2.1 r hr c).1 hc⟩)
  · exact .inr (hnamed _ (hn.2.1 r hr ▸ hrefs))

/-- R22: a full table holds a record that an eviction removes. -/
theorem evict_length (hp : pinsLaw links table) (hn : refsLaw n table) (hnamed : ∀ y, 0 < n y → y ∈ named)
    (hsize : named.length ≤ 28) (hfull : 64 ≤ table.length) : (evict table).length + 1 = table.length := by
  rcases evict_cases table with ⟨-, hall⟩ | ⟨before, r, after, rfl, -, he⟩
  · have hsub : table.map QuoteRecord.symbol ⊆ cellNumbers.filterMap links ++ named := fun y hy => by
      obtain ⟨r, hr, rfl⟩ := List.mem_map.1 hy
      exact mem_of_pinned hp hn hnamed hr (hall r hr)
    have hlength := (hp.1.subperm hsub).length_le
    have hlinked : (cellNumbers.filterMap links).length ≤ 16 := List.length_filterMap_le _ _
    rw [List.length_append, List.length_map] at hlength
    omega
  · rw [he]
    simp
    omega

theorem ensureHeld_length (y : Symbol) (hp : pinsLaw links table) (hn : refsLaw n table)
    (hnamed : ∀ y, 0 < n y → y ∈ named) (hsize : named.length ≤ 28) (h : table.length ≤ 64) :
    (ensureHeld y table).length ≤ 64 := by
  cases hr : findRecord y table with
  | some r => rwa [ensureHeld_of_held hr]
  | none =>
    rw [ensureHeld_of_absent hr, install, List.length_cons]
    split_ifs with hlt
    · exact hlt
    · have := evict_length hp hn hnamed hsize (Nat.not_lt.1 hlt)
      omega

theorem unlinkTable_length (cell : Fin 16) (old : Option Symbol) (table : List QuoteRecord) :
    (unlinkTable cell old table).length = table.length := by
  cases old with
  | none => rfl
  | some z => exact updateRecord_length z _ table

theorem planTable_length (m : PlanMsg) (hp : pinsLaw links table) (hn : refsLaw n table)
    (hnamed : ∀ y, 0 < n y → y ∈ named) (hsize : named.length ≤ 28) (h : table.length ≤ 64) :
    (planTable m (links m.cell) table).length ≤ 64 := by
  have hunlinked : (unlinkTable m.cell (links m.cell) table).length ≤ 64 := by rwa [unlinkTable_length]
  unfold planTable
  split_ifs
  · split
    · rwa [updateRecord_length]
    · exact h
  · split
    · exact hunlinked
    · rw [updateRecord_length]
      exact ensureHeld_length _ (unlinkTable_pinsLaw hp) (unlinkTable_refsLaw _ _ hn) hnamed hsize hunlinked

end Table

/-! ### The size of the table as a desk invariant -/

theorem tableWithinSize_of_kept {s t : State} (h : tableWithinSize s) (hk : pinsKept s.table t.table)
    (hp : pinsFollowLinks t) (hr : refsFollowTerminals t) : tableWithinSize t :=
  ⟨(length_of_pinsKept hk h.2.1.1).trans_le h.1, hp, hr⟩

theorem tableWithinSize_desk : DeskInvariant tableWithinSize where
  congr := fun hsame ⟨hl, hp, hr⟩ =>
    ⟨by rwa [hsame.1], pinsFollowLinks_desk.congr hsame hp, refsFollowTerminals_desk.congr hsame hr⟩
  records table ht h := tableWithinSize_of_kept h (pinsKept_of_ties ht)
    (pinsFollowLinks_desk.records table ht h.2.1) (refsFollowTerminals_desk.records table ht h.2.2)
  cells cells hc h :=
    ⟨h.1, pinsFollowLinks_desk.cells cells hc h.2.1, refsFollowTerminals_desk.cells cells hc h.2.2⟩
  faces q hq h :=
    ⟨h.1, pinsFollowLinks_desk.faces q hq h.2.1, refsFollowTerminals_desk.faces q hq h.2.2⟩
  key u k hr h := tableWithinSize_of_kept h (offerKey_scan u _ k).records
    (pinsFollowLinks_desk.key u k hr h.2.1) (refsFollowTerminals_desk.key u k hr h.2.2)
  timeout u h := tableWithinSize_of_kept h (timeoutAsk_scan u _).records
    (pinsFollowLinks_desk.timeout u h.2.1) (refsFollowTerminals_desk.timeout u h.2.2)
  fire y p u h := by
    rename_i s
    have htable : (fireAt y p u s).table = s.table := by
      rcases fireAt_cases s y p u with e | ⟨l, -, -, -, e⟩ <;> rw [e]
      split_ifs <;> rfl
    exact ⟨by rw [htable]; exact h.1, pinsFollowLinks_desk.fire y p u h.2.1,
      refsFollowTerminals_desk.fire y p u h.2.2⟩
  plan m h := by
    rename_i s
    obtain ⟨hl, hp, hr⟩ := h
    exact ⟨planTable_length m ((pinsFollowLinks_iff s).1 hp).2 ((refsFollowTerminals_iff s).1 hr).2.1
      (fun _ => State.mem_named) (State.named_length hr.2.1) hl,
      pinsFollowLinks_desk.plan m hp, refsFollowTerminals_desk.plan m hr⟩
  answer m hr h := by
    rename_i s
    obtain ⟨hl, hp, hrefs⟩ := h
    refine ⟨?_, pinsFollowLinks_desk.answer m hr hp, refsFollowTerminals_desk.answer m hr hrefs⟩
    by_cases hm : answerMatches m s = true
    · have hpins := ((pinsFollowLinks_iff s).1 hp).2
      rw [length_of_pinsKept (takeAnswer_records hm).1 (hpins.ensureHeld m.symbol).1]
      exact ensureHeld_length m.symbol hpins ((refsFollowTerminals_iff s).1 hrefs).2.1
        (fun _ => State.mem_named) (State.named_length hrefs.2.1) hl
    · rw [takeAnswer, if_neg hm]
      exact hl
  restart h := by
    rename_i s
    exact ⟨by rw [(dayStart_board s).1]; exact Nat.zero_le _, pinsFollowLinks_desk.restart h.2.1,
      refsFollowTerminals_desk.restart h.2.2⟩
  release pins s := by
    have htable := (requestAtZero_tape (s.powerOn (readStraps pins))).table
    exact ⟨(congrArg List.length htable).trans_le (Nat.zero_le 64), pinsFollowLinks_desk.release pins s,
      refsFollowTerminals_desk.release pins s⟩

/-- Settles O10: the size of the table as a desk invariant. -/
theorem stepKeepsTableSize : Obligations.StepKeepsTableSize := fun _ _ h hst =>
  tableWithinSize_desk.step h hst

end Sys2Proof.Machine
end

section
/-!
PROOFS. The judgement of a hold (R105 to R108): the model's batches are the batches due, and its rounds hand
on every one of them.
-/
namespace Sys2Proof.Machine

/-! ### The removal test and the marks (R106, R108) -/

theorem stays_eq (s : State) (c : TapeChar) : stays s c = !(c.passed s.leftCol && (c.sent || s.isTail)) := by
  have hpassed : c.passed s.leftCol = !decide (0 ≤ sdiff (c.entry + 5) s.leftCol) := by
    simp only [TapeChar.passed, ← decide_not, Int.not_le]
  rw [stays, hpassed]
  cases decide (0 ≤ sdiff (c.entry + 5) s.leftCol) <;> simp

theorem stays_of_near {s : State} {c : TapeChar} (h : 0 ≤ sdiff (c.entry + 5) s.leftCol) :
    stays s c = true := by
  simp only [stays, h, decide_true, Bool.true_or]

theorem stays_of_unsent {s : State} {c : TapeChar} (hs : c.sent = false) (ht : s.isTail = false) :
    stays s c = true := by
  simp [stays, hs, ht]

/-- The removal test does not ask for the hold. -/
theorem stays_congr {s t : State} (hl : t.leftCol = s.leftCol) (ht : t.isTail = s.isTail) :
    stays t = stays s := by
  funext c
  rw [stays, stays, hl, ht]

theorem removePassed_filter (s : State) :
    removePassed s = s.withHoldAndTape (s.crawl.hold.filter (stays s)) s.line.tapeQueue := by
  rw [removePassed_eq, keptChars]
  exact congrArg (fun h => s.withHoldAndTape h _) (List.filter_congr fun c _ => (stays_eq s c).symm)

theorem markSent_map (batch : List TapeChar) (s : State) :
    markSent batch s = s.withHoldAndTape (s.crawl.hold.map (markedSent batch)) s.line.tapeQueue := by
  have hmark : ∀ x : TapeChar, (if batch.any (fun b => b.index == x.index) then { x with sent := true } else x) =
      markedSent batch x := fun x => by
    have hiff : batch.any (fun b => b.index == x.index) = true ↔ x.index ∈ batch.map TapeChar.index := by
      simp
    rw [markedSent]
    exact if_congr hiff rfl rfl
  unfold markSent
  simp only [hmark]
  rfl

theorem markedSent_cases (batch : List TapeChar) (c : TapeChar) :
    markedSent batch c = c ∨ markedSent batch c = { c with sent := true } := by
  unfold markedSent
  split_ifs
  · exact .inr rfl
  · exact .inl rfl

theorem sendBatch_filter (batch : List TapeChar) (s : State) : sendBatch batch s = s.withHoldAndTape
    ((s.crawl.hold.map (markedSent batch)).filter (stays s))
    (if s.listenOnly then s else queueHandoff batch s).line.tapeQueue := by
  have hqueue : (if s.listenOnly then s else queueHandoff batch s) = s.withHoldAndTape s.crawl.hold
      (if s.listenOnly then s else queueHandoff batch s).line.tapeQueue := by
    split_ifs
    · rfl
    · unfold queueHandoff
      split <;> rfl
  rw [sendBatch, markSent_map, removePassed_filter]
  rw [hqueue]
  rfl

/-! ### Batches (R105, R106) -/

section Batch
variable {left : Col} {hold batch : List TapeChar}

/-- R106: what a run holds: unsent characters of consecutive index, n at most, and as many as there are. -/
theorem runFrom_spec (n : Nat) (i : Col) (hold : List TapeChar) : ∃ after, hold = runFrom n i hold ++ after ∧
    (runFrom n i hold).length ≤ n ∧
    (∀ k c, (runFrom n i hold)[k]? = some c → c.sent = false ∧ c.index = i + BitVec.ofNat 24 k) ∧
    ((runFrom n i hold).length < n → ∀ c, after.head? = some c →
      c.sent = true ∨ c.index ≠ i + BitVec.ofNat 24 (runFrom n i hold).length) := by
  induction n generalizing i hold with
  | zero => exact ⟨hold, rfl, le_rfl, fun k c h => by simp [runFrom] at h, fun h => absurd h (Nat.not_lt_zero _)⟩
  | succ n ih =>
    cases hold with
    | nil => exact ⟨[], rfl, Nat.zero_le _, fun k c h => by simp [runFrom] at h, fun _ c h => by simp at h⟩
    | cons c cs =>
      by_cases hc : c.sent = false ∧ c.index = i
      · obtain ⟨after, heq, hlen, hall, hnext⟩ := ih (i + 1) cs
        have hrun : runFrom (n + 1) i (c :: cs) = c :: runFrom n (i + 1) cs := by rw [runFrom, if_pos hc]
        have hadd : ∀ k : Nat, i + 1 + BitVec.ofNat 24 k = i + BitVec.ofNat 24 (k + 1) := fun k => by
          rw [Nat.add_comm k, BitVec.ofNat_add, BitVec.add_assoc]
          rfl
        rw [hrun]
        refine ⟨after, by rw [List.cons_append, ← heq], Nat.succ_le_succ hlen, fun k d hd => ?_,
          fun hlt d hd => ?_⟩
        · cases k with
          | zero =>
            obtain rfl : c = d := by simpa using hd
            exact ⟨hc.1, by simp [hc.2]⟩
          | succ k =>
            rw [← hadd]
            exact hall k d hd
        · rw [List.length_cons, ← hadd]
          exact hnext (Nat.lt_of_succ_lt_succ hlt) d hd
      · have hrun : runFrom (n + 1) i (c :: cs) = [] := by rw [runFrom, if_neg hc]
        rw [hrun]
        refine ⟨c :: cs, rfl, Nat.zero_le _, fun k d hd => by simp at hd, fun _ d hd => ?_⟩
        obtain rfl : c = d := by simpa using hd
        rw [Classical.or_iff_not_imp_left]
        intro hs
        simpa [Bool.eq_false_iff.2 hs] using hc

theorem batchOf_of_split {before rest : List TapeChar} {c : TapeChar} (hbefore : ∀ b ∈ before, b.sent = true)
    (hc : c.sent = false) : batchOf left (before ++ c :: rest) =
      if sdiff c.entry left < 24 then runFrom 4 c.index (c :: rest) else [] := by
  rw [batchOf, List.dropWhile_append_of_pos hbefore, List.dropWhile_cons_of_neg (by simp [hc])]

/-- R105, R106: what the model forms is the batch due. -/
theorem isBatch_batchOf (h : batchOf left hold ≠ []) : isBatch left hold (batchOf left hold) := by
  cases hd : hold.dropWhile (fun c => c.sent) with
  | nil => exact absurd (by rw [batchOf, hd]) h
  | cons c cs =>
    have hsplit := List.takeWhile_append_dropWhile (p := fun c : TapeChar => c.sent) (l := hold)
    have hc : c.sent = false := by
      have := List.head_dropWhile_not (fun c : TapeChar => c.sent) (l := hold) (by simp [hd])
      simpa [hd] using this
    have hbefore : ∀ b ∈ hold.takeWhile (fun c => c.sent), b.sent = true := fun b hb => List.mem_takeWhile_imp hb
    rw [hd] at hsplit
    rw [← hsplit, batchOf_of_split hbefore hc] at h ⊢
    split_ifs at h ⊢ with hdue
    · obtain ⟨after, heq, hlen, hall, hnext⟩ := runFrom_spec 4 c.index (c :: cs)
      refine ⟨_, after, runFrom 3 (c.index + 1) cs, c, ?_, ?_, hlen, hdue, hbefore, hall, hnext⟩
      · rw [List.append_assoc, ← heq]
      · rw [runFrom, if_pos ⟨hc, rfl⟩]
    · exact absurd rfl h

/-- R105: where a batch is due the model forms one. -/
theorem batchOf_ne_nil (h : isBatch left hold batch) : batchOf left hold ≠ [] := by
  obtain ⟨before, after, more, first, rfl, rfl, -, hdue, hbefore, hall, -⟩ := h
  have hfirst : first.sent = false := (hall 0 first rfl).1
  rw [List.append_assoc, List.cons_append, batchOf_of_split hbefore hfirst, if_pos hdue, runFrom,
    if_pos ⟨hfirst, rfl⟩]
  exact List.cons_ne_nil _ _

theorem dueBatch_ne_nil {s : State} (ht : s.isTail = false) (h : isBatch s.leftCol s.crawl.hold batch) :
    dueBatch s ≠ [] := by
  rw [dueBatch, if_neg (by simp [ht])]
  exact batchOf_ne_nil h

theorem isBatch_dueBatch {s : State} (h : dueBatch s ≠ []) :
    s.isTail = false ∧ isBatch s.leftCol s.crawl.hold (dueBatch s) := by
  rw [dueBatch] at h ⊢
  split_ifs at h ⊢ with ht
  · exact absurd rfl h
  · exact ⟨by simpa using ht, isBatch_batchOf h⟩

end Batch

/-! ### Handing on (R106, R107) -/

section HandsOn
variable {s t : State}

theorem queueHandoff_of_ribbon {r : Fin 4} {batch more : List TapeChar} {first : TapeChar}
    (hr : s.straps.ribbon = some r) (hb : batch = first :: more) :
    ∃ g, isHandoffOf s r batch g ∧ (queueHandoff batch s).line.tapeQueue = s.line.tapeQueue ++ [g] := by
  subst hb
  refine ⟨_, ⟨handoffOffset s.crawl.offset s.straps.width, first.index, rfl, rfl, fun n hn hlt => ?_⟩, ?_⟩
  · rw [hn, handoffOffset, if_pos hlt]
    exact Nat.mod_eq_of_lt hlt
  · simp only [queueHandoff, hr]
    rfl

/-- R106, R107: one round of the model hands one batch on. -/
theorem sendBatch_handsOn (hdue : dueBatch s ≠ [])
    (hroom : s.listenOnly = true ∨ s.line.tapeQueue.length < 8) : handsOn s (sendBatch (dueBatch s) s) := by
  obtain ⟨ht, hbatch⟩ := isBatch_dueBatch hdue
  refine ⟨ht, hroom, dueBatch s, _, hbatch, fun hq => ?_, fun r hl hr => ?_, sendBatch_filter _ s⟩
  · split_ifs with hl
    · rfl
    · rcases hq with hq | hr
      · exact absurd hq hl
      · simp only [queueHandoff, hr]
  · obtain ⟨-, -, more, first, -, hb, -⟩ := hbatch
    obtain ⟨g, hg, heq⟩ := queueHandoff_of_ribbon (s := s) hr hb
    rw [if_neg (by simp [hl])]
    exact ⟨g, hg, heq⟩

/-- The unsent characters held. -/
def unsentCount (hold : List TapeChar) : Nat := hold.countP (fun c => !c.sent)

/-- R106: every batch handed on lowers the number of unsent characters. -/
theorem handsOn.unsentCount_lt (h : handsOn s t) : unsentCount t.crawl.hold < unsentCount s.crawl.hold := by
  obtain ⟨-, -, batch, queue, ⟨before, after, more, first, hhold, hb, -, -, -, hall, -⟩, -, -, rfl⟩ := h
  have hle : ∀ l : List TapeChar, unsentCount (l.map (markedSent batch)) ≤ unsentCount l := fun l => by
    rw [unsentCount, List.countP_map]
    refine List.countP_mono_left fun c _ hc => ?_
    rcases markedSent_cases batch c with e | e <;> simp_all
  have hfirst : first.sent = false := (hall 0 first (by simp [hb])).1
  have hmark : (markedSent batch first).sent = true := by rw [markedSent, if_pos (by simp [hb])]
  calc unsentCount ((s.crawl.hold.map (markedSent batch)).filter (stays s))
      ≤ unsentCount (s.crawl.hold.map (markedSent batch)) := (List.filter_sublist).countP_le
    _ < unsentCount s.crawl.hold := by
      have h1 := hle before
      have h2 := hle more
      have h3 := hle after
      rw [hhold]
      nth_rewrite 2 [hb]
      rw [hb] at h1 h2 h3 hmark ⊢
      simp only [unsentCount, List.map_append, List.map_cons, List.countP_append, List.countP_cons, hmark,
        hfirst] at h1 h2 h3 ⊢
      simp only [Bool.not_true, Bool.not_false, Bool.false_eq_true, if_false, if_true]
      omega

/-- R107: a batch is queued where there is a next segment to send it to. -/
theorem handsOn.tapeQueue_length (h : handsOn s t) {r : Fin 4} (hl : s.listenOnly = false)
    (hr : s.straps.ribbon = some r) : t.line.tapeQueue.length = s.line.tapeQueue.length + 1 := by
  obtain ⟨-, -, batch, queue, -, -, hq, rfl⟩ := h
  obtain ⟨g, -, rfl⟩ := hq r hl hr
  exact List.length_append

/-- R108: a character whose columns have not passed stays. -/
theorem handsOn.keeps_near (h : handsOn s t) {c : TapeChar} (hc : c ∈ s.crawl.hold)
    (hnear : 0 ≤ sdiff (c.entry + 5) s.leftCol) :
    ∃ d ∈ t.crawl.hold, d.entry = c.entry ∧ (d = c ∨ d = { c with sent := true }) := by
  obtain ⟨-, -, batch, queue, -, -, -, rfl⟩ := h
  have hentry : (markedSent batch c).entry = c.entry := by
    rcases markedSent_cases batch c with e | e <;> rw [e]
  refine ⟨markedSent batch c, List.mem_filter.2 ⟨List.mem_map_of_mem hc, stays_of_near ?_⟩, hentry,
    markedSent_cases batch c⟩
  rwa [hentry]

/-- What the handing on of batches leaves of a state. -/
theorem handsOn.sameButHold (h : handsOn s t) : ∃ hold q, t = s.withHoldAndTape hold q := by
  obtain ⟨-, -, batch, queue, -, -, -, rfl⟩ := h
  exact ⟨(s.crawl.hold.map (markedSent batch)).filter (stays s), queue, rfl⟩

end HandsOn

/-! ### All batches due (R105 to R107) -/

theorem mayQueue_iff {s : State} :
    (s.listenOnly || decide (s.line.tapeQueue.length < Config.tapeQueueSize)) = true ↔
      s.listenOnly = true ∨ s.line.tapeQueue.length < 8 := by
  rw [Bool.or_eq_true, decide_eq_true_eq]
  exact Iff.rfl

theorem forward_handsOn (n : Nat) (s : State) : Relation.ReflTransGen handsOn s (forward n s) := by
  induction n generalizing s with
  | zero => exact .refl
  | succ n ih =>
    unfold forward
    cases hb : dueBatch s with
    | nil => exact .refl
    | cons c cs =>
      simp only
      split_ifs with hroom
      · rw [← hb]
        exact .head (sendBatch_handsOn (by simp [hb]) (mayQueue_iff.1 hroom)) (ih _)
      · exact .refl

/-- R105 to R107: with a round for every unsent character, no batch that can be handed on is left. -/
theorem forward_complete (n : Nat) (s : State) (hn : unsentCount s.crawl.hold ≤ n) (batch : List TapeChar)
    (hb : isBatch (forward n s).leftCol (forward n s).crawl.hold batch) : (forward n s).isTail = true ∨
      ((forward n s).listenOnly = false ∧ 8 ≤ (forward n s).line.tapeQueue.length) := by
  induction n generalizing s with
  | zero =>
    obtain ⟨before, after, more, first, hhold, rfl, -, -, -, hall, -⟩ := hb
    have hpos : 0 < unsentCount s.crawl.hold :=
      List.countP_pos_iff.2 ⟨first, by rw [forward] at hhold; simp [hhold], by simp [(hall 0 first rfl).1]⟩
    omega
  | succ n ih =>
    unfold forward at hb ⊢
    cases hd : dueBatch s with
    | nil =>
      simp only [hd] at hb ⊢
      cases ht : s.isTail
      · exact absurd hd (dueBatch_ne_nil ht hb)
      · exact .inl rfl
    | cons c cs =>
      simp only [hd] at hb ⊢
      split_ifs at hb ⊢ with hroom
      · have hlt := (sendBatch_handsOn (s := s) (by simp [hd]) (mayQueue_iff.1 hroom)).unsentCount_lt
        rw [hd] at hlt
        exact ih _ (by omega) hb
      · simp only [Bool.or_eq_true, decide_eq_true_eq, not_or, Bool.not_eq_true, not_lt] at hroom
        exact .inr hroom

theorem forward_handsOver (s : State) : handsOver s (forward Config.holdSize s) :=
  ⟨forward_handsOn _ s, fun hlen => forward_complete _ s (List.countP_le_length.trans hlen)⟩

/-- R105, R108: the model's judgement of a hold judges it. -/
theorem judgeHold_judged (s : State) : judged s (judgeHold s) := by
  rw [judgeHold, removePassed_filter]
  exact forward_handsOver _

/-! ### What a judgement keeps -/

section HandsOver
variable {s t : State}

theorem handsOver_sameButHold (h : Relation.ReflTransGen handsOn s t) : ∃ hold q, t = s.withHoldAndTape hold q := by
  induction h with
  | refl => exact ⟨_, _, s.withHoldAndTape_self.symm⟩
  | tail _ hlast ih =>
    obtain ⟨hold, q, rfl⟩ := ih
    obtain ⟨hold', q', rfl⟩ := hlast.sameButHold
    exact ⟨hold', q', rfl⟩

/-- R108: every character whose columns have not passed stays. -/
theorem handsOver_keeps_near (h : Relation.ReflTransGen handsOn s t) {c : TapeChar} (hc : c ∈ s.crawl.hold)
    (hnear : 0 ≤ sdiff (c.entry + 5) s.leftCol) :
    ∃ d ∈ t.crawl.hold, d.entry = c.entry ∧ (d = c ∨ d = { c with sent := true }) := by
  induction h with
  | refl => exact ⟨c, hc, rfl, .inl rfl⟩
  | tail hmid hlast ih =>
    obtain ⟨d, hd, hentry, hdc⟩ := ih
    obtain ⟨hold, q, rfl⟩ := handsOver_sameButHold hmid
    obtain ⟨e, he, hentry', hed⟩ := hlast.keeps_near hd (by rw [hentry]; exact hnear)
    refine ⟨e, he, hentry'.trans hentry, ?_⟩
    rcases hdc with rfl | rfl
    · exact hed
    · exact .inr (hed.elim id id)

/-- R107: where batches are queued, an unchanged queue shows that none was handed on. -/
theorem handsOver_of_sameQueue (h : Relation.ReflTransGen handsOn s t) {r : Fin 4} (hl : s.listenOnly = false)
    (hr : s.straps.ribbon = some r) :
    s.line.tapeQueue.length ≤ t.line.tapeQueue.length ∧ (t.line.tapeQueue = s.line.tapeQueue → t = s) := by
  induction h with
  | refl => exact ⟨le_rfl, fun _ => rfl⟩
  | tail hmid hlast ih =>
    obtain ⟨hold, q, rfl⟩ := handsOver_sameButHold hmid
    have hlen := hlast.tapeQueue_length (r := r) hl hr
    refine ⟨by omega, fun heq => ?_⟩
    rw [heq] at hlen
    omega

end HandsOver

section Judged
variable (s : State)

theorem judgeHold_sameButHold : ∃ hold q, judgeHold s = s.withHoldAndTape hold q := by
  obtain ⟨hold, q, e, -⟩ := judgeHold_eq s
  exact ⟨hold, q, e⟩

theorem judgeHold_keeps_near {c : TapeChar} (hc : c ∈ s.crawl.hold)
    (hnear : 0 ≤ sdiff (c.entry + 5) s.leftCol) :
    ∃ d ∈ (judgeHold s).crawl.hold, d = c ∨ d = { c with sent := true } := by
  obtain ⟨d, hd, -, h⟩ := handsOver_keeps_near (judgeHold_judged s).1
    (List.mem_filter.2 ⟨hc, stays_of_near hnear⟩) hnear
  exact ⟨d, hd, h⟩

theorem judgeHold_keeps_unsent {c : TapeChar} {r : Fin 4} (hc : c ∈ s.crawl.hold) (hs : c.sent = false)
    (ht : s.isTail = false) (hl : s.listenOnly = false) (hr : s.straps.ribbon = some r)
    (hq : (judgeHold s).line.tapeQueue = s.line.tapeQueue) : c ∈ (judgeHold s).crawl.hold := by
  rw [(handsOver_of_sameQueue (judgeHold_judged s).1 hl hr).2 hq]
  exact List.mem_filter.2 ⟨hc, stays_of_unsent hs ht⟩

/-- R105: after a judgement no batch is due that could be handed on. -/
theorem judgeHold_dueBatch (hlen : s.crawl.hold.length ≤ 48)
    (h : (judgeHold s).listenOnly = true ∨ (judgeHold s).line.tapeQueue.length < 8) :
    dueBatch (judgeHold s) = [] := by
  by_contra hdue
  obtain ⟨ht, hb⟩ := isBatch_dueBatch hdue
  rcases (judgeHold_judged s).2 ((List.length_filter_le _ _).trans hlen) _ hb with htail | ⟨hl, hfull⟩
  · rw [ht] at htail
    cases htail
  · rcases h with h | h
    · rw [hl] at h
      cases h
    · omega

end Judged

end Sys2Proof.Machine
end

section
/-!
PROOFS. One crawl step (R94 to R96, R105 to R110).
-/
namespace Sys2Proof.Machine

/-! ### The step count, the slew and the pace timer (R94 to R96) -/

section Stepped
variable {head : Bool} {c : Crawl}

theorem stepped_timer (head : Bool) (c : Crawl) : (c.stepped head).counter = 0 ∧
    (c.stepped head).period = c.staged.getD c.period ∧ (c.stepped head).staged = none := by
  unfold Crawl.stepped Crawl.advance
  split_ifs <;> exact ⟨rfl, rfl, rfl⟩

/-- What a crawl step leaves of the crawl unit before the hold is judged. -/
theorem stepped_keeps (head : Bool) (c : Crawl) : (c.stepped head).segState = c.segState ∧
    (c.stepped head).offset = c.offset ∧ (c.stepped head).paceLevel = c.paceLevel ∧
    (c.stepped head).silence = c.silence ∧ (c.stepped head).pendingPace = c.pendingPace := by
  unfold Crawl.stepped Crawl.advance
  split_ifs <;> exact ⟨rfl, rfl, rfl, rfl, rfl⟩

theorem stepped_of_head (c : Crawl) : (c.stepped true).stepCount = c.stepCount + 1 ∧
    (c.stepped true).slew = c.slew ∧ (c.stepped true).phase = c.phase := ⟨rfl, rfl, rfl⟩

theorem advance_of_steady (h : c.slew = 0) : c.advance = { c with stepCount := c.stepCount + 1 } := if_pos h

theorem advance_of_phase (h : c.slew ≠ 0) (hp : c.phase < 3) :
    c.advance = { c with stepCount := c.stepCount + 1, phase := c.phase + 1 } := by
  rw [Crawl.advance, if_neg h, if_pos (by omega)]

theorem advance_of_ahead (h : 0 < c.slew) (hp : 3 ≤ c.phase) :
    c.advance = { c with stepCount := c.stepCount + 2, slew := c.slew - 1, phase := 0 } := by
  rw [Crawl.advance, if_neg (by omega), if_neg (by omega), if_pos h]

theorem advance_of_behind (h : c.slew < 0) (hp : 3 ≤ c.phase) :
    c.advance = { c with slew := c.slew + 1, phase := 0 } := by
  rw [Crawl.advance, if_neg (by omega), if_neg (by omega), if_neg (by omega)]

theorem stepped_follower (c : Crawl) : c.stepped false = c.pass.advance := rfl

theorem stepped_of_steady (h : c.slew = 0) : (c.stepped head).stepCount = c.stepCount + 1 ∧
    (c.stepped head).slew = c.slew ∧ (c.stepped head).phase = c.phase := by
  cases head
  · rw [stepped_follower, advance_of_steady (c := c.pass) h]
    exact ⟨rfl, rfl, rfl⟩
  · exact stepped_of_head c

end Stepped

/-! ### The head's mark (R110) -/

/-- What the mark at a multiple of 256 changes: the general queue and the pending request. -/
theorem paceAtMultiple_eq (s : State) : ∃ q p, paceAtMultiple s = { s with
    line := { s.line with generalQueue := q }, crawl := { s.crawl with pendingPace := p } } := by
  have hself : ∃ q p, s = { s with
      line := { s.line with generalQueue := q }, crawl := { s.crawl with pendingPace := p } } := ⟨_, _, rfl⟩
  unfold paceAtMultiple
  split_ifs
  · rcases requestPace_cases s with e | ⟨-, e⟩ | ⟨r, -, -, -, -, e⟩ <;> rw [e]
    · exact hself
    · exact ⟨_, _, rfl⟩
    · exact ⟨_, _, rfl⟩
  · exact hself

theorem paceAtMultiple_of_not_due {s : State} (h : s.isHead = false ∨ s.crawl.stepCount.toNat % 256 ≠ 0) :
    paceAtMultiple s = s := by
  refine if_neg fun hdue => ?_
  simp only [Bool.and_eq_true, beq_iff_eq] at hdue
  rcases h with h | h
  · rw [hdue.1] at h
    cases h
  · exact h hdue.2

/-- R110: a head's mark at a multiple of 256, where none waits. -/
theorem paceAtMultiple_of_due {s : State} {r : Fin 4} (hr : s.straps.ribbon = some r)
    (hseg : s.straps.segment = 0) (hl : s.listenOnly = false) (hT : s.crawl.stepCount.toNat % 256 = 0)
    (hwait : (waitingFrames s.sendingGeneral s.line.generalQueue).any TxFrame.isPace = false) :
    (s.line.generalQueue.length < 4 →
      (paceAtMultiple s).line.generalQueue = s.line.generalQueue ++ [⟨0, .pace r, 0⟩]) ∧
    (4 ≤ s.line.generalQueue.length → (paceAtMultiple s).line.generalQueue = s.line.generalQueue ∧
      (paceAtMultiple s).crawl.pendingPace = true) := by
  have hhead : s.isHead = true := by simp [State.isHead, hr, hseg]
  have hpace : paceAtMultiple s = requestPace s := by
    rw [paceAtMultiple, hhead, hT]
    rfl
  rw [hpace, requestPace_of_head hr hseg hl, hwait, if_neg Bool.false_ne_true]
  refine ⟨fun hlt => ?_, fun hle => ?_⟩
  · rw [generalFull_of_lt hlt, if_neg Bool.false_ne_true]
    rfl
  · rw [generalFull_of_le hle, if_pos rfl]
    exact ⟨rfl, rfl⟩

/-! ### The whole step (R95) -/

/-- A crawl step of a moving segment, by its parts: the crawl unit that has stepped, the hold and the tape
queue that the judgement leaves, and what the head's mark leaves. -/
theorem crawlStep_parts {s : State} (hm : s.moving = true) : ∃ hold tape general pending,
    judgeHold (s.onCrawl (Crawl.stepped s.isHead)) =
      (s.onCrawl (Crawl.stepped s.isHead)).withHoldAndTape hold tape ∧
    crawlStep s = { s with
      line := { s.line with tapeQueue := tape, generalQueue := general }
      crawl := { s.crawl.stepped s.isHead with hold := hold, pendingPace := pending } } := by
  obtain ⟨hold, tape, hjudge⟩ := judgeHold_sameButHold (s.onCrawl (Crawl.stepped s.isHead))
  obtain ⟨general, pending, hpace⟩ := paceAtMultiple_eq (judgeHold (s.onCrawl (Crawl.stepped s.isHead)))
  refine ⟨hold, tape, general, pending, hjudge, ?_⟩
  rw [crawlStep_of_moving hm, hpace, hjudge]
  rfl

theorem crawlStep_pace {s : State} (hm : s.moving = true) : ∃ hold tape,
    crawlStep s = paceAtMultiple ((s.onCrawl (Crawl.stepped s.isHead)).withHoldAndTape hold tape) := by
  obtain ⟨hold, tape, hjudge⟩ := judgeHold_sameButHold (s.onCrawl (Crawl.stepped s.isHead))
  exact ⟨hold, tape, by rw [crawlStep_of_moving hm, hjudge]⟩

/-- R110: between the multiples of 256, and elsewhere than at a head, no mark is asked for. -/
theorem crawlStep_of_no_mark {s : State} (hm : s.moving = true)
    (h : s.isHead = false ∨ (s.crawl.stepCount + 1).toNat % 256 ≠ 0) :
    (crawlStep s).line.generalQueue = s.line.generalQueue ∧
      (crawlStep s).crawl.pendingPace = s.crawl.pendingPace := by
  obtain ⟨hold, tape, hpace⟩ := crawlStep_pace hm
  obtain ⟨-, -, -, -, hpending⟩ := stepped_keeps s.isHead s.crawl
  rw [hpace, paceAtMultiple_of_not_due]
  · exact ⟨rfl, hpending⟩
  · cases hhead : s.isHead
    · exact .inl hhead
    · exact .inr (h.resolve_left (by simp [hhead]))

/-- R110: the mark of a head at a multiple of 256. -/
theorem crawlStep_of_mark {s : State} {r : Fin 4} (hm : s.moving = true) (hr : s.straps.ribbon = some r)
    (hseg : s.straps.segment = 0) (hl : s.listenOnly = false)
    (hT : (s.crawl.stepCount + 1).toNat % 256 = 0)
    (hwait : (waitingFrames s.sendingGeneral s.line.generalQueue).any TxFrame.isPace = false) :
    (s.line.generalQueue.length < 4 →
      (crawlStep s).line.generalQueue = s.line.generalQueue ++ [⟨0, .pace r, 0⟩]) ∧
    (4 ≤ s.line.generalQueue.length → (crawlStep s).line.generalQueue = s.line.generalQueue ∧
      (crawlStep s).crawl.pendingPace = true) := by
  obtain ⟨hold, tape, hpace⟩ := crawlStep_pace hm
  have hhead : s.isHead = true := by simp [State.isHead, hr, hseg]
  rw [hpace, hhead]
  exact paceAtMultiple_of_due (s := (s.onCrawl (Crawl.stepped true)).withHoldAndTape hold tape) hr hseg hl
    hT hwait

theorem judged_stepped (s : State) (hold : List TapeChar) (pending : Bool) :
    judged { s with crawl := { ({ s.crawl.stepped s.isHead with hold := hold, pendingPace := pending } :
        Crawl) with hold := s.crawl.hold, pendingPace := s.crawl.pendingPace } }
      (judgeHold (s.onCrawl (Crawl.stepped s.isHead))) := by
  obtain ⟨-, -, -, -, hpending⟩ := stepped_keeps s.isHead s.crawl
  have hsame : { s.crawl.stepped s.isHead with hold := s.crawl.hold, pendingPace := s.crawl.pendingPace } =
      s.crawl.stepped s.isHead := by
    rw [← hpending, ← stepped_hold s.isHead s.crawl]
  show judged (s.withCrawl { s.crawl.stepped s.isHead with
    hold := s.crawl.hold, pendingPace := s.crawl.pendingPace }) _
  rw [hsame]
  exact judgeHold_judged _

/-- Settles O46: by the stepped crawl unit, the judgement of its hold, and the head's mark. -/
theorem crawlStepAdvances : Obligations.CrawlStepAdvances := by
  intro s hr
  refine ⟨fun hm => exec_next_of hr (crawlStep_of_still hm), fun hm hlen => ?_⟩
  obtain ⟨hold, tape, general, pending, hjudge, hstep⟩ := crawlStep_parts hm
  have hdue := judgeHold_dueBatch (s.onCrawl (Crawl.stepped s.isHead)) (by
    rw [State.onCrawl_crawl, stepped_hold]
    exact hlen)
  have hjudged := judgeHold_holdJudged (s.onCrawl (Crawl.stepped s.isHead))
  obtain ⟨hold', tape', heq, hheld, hkeep, -⟩ := judgeHold_eq (s.onCrawl (Crawl.stepped s.isHead))
  obtain ⟨rfl, rfl⟩ : hold = hold' ∧ tape = tape' := by
    have := hjudge.symm.trans heq
    exact ⟨congrArg (fun u : State => u.crawl.hold) this, congrArg (fun u : State => u.line.tapeQueue) this⟩
  have hnear := @judgeHold_keeps_near (s.onCrawl (Crawl.stepped s.isHead))
  have hunsent := @judgeHold_keeps_unsent (s.onCrawl (Crawl.stepped s.isHead))
  have hhold : (judgeHold (s.onCrawl (Crawl.stepped s.isHead))).crawl.hold = hold := by rw [hjudge]; rfl
  have htape : (judgeHold (s.onCrawl (Crawl.stepped s.isHead))).line.tapeQueue = tape := by rw [hjudge]; rfl
  have hnone := crawlStep_of_no_mark hm
  have hmark := @crawlStep_of_mark s
  rw [hstep] at hnone hmark
  rw [State.onCrawl_crawl, stepped_hold] at hheld hnear hunsent
  rw [hjudge] at hdue hjudged hnear hunsent
  obtain ⟨hcounter, hperiod, hstaged⟩ := stepped_timer s.isHead s.crawl
  obtain ⟨hseg, hoff, hlevel, hsil, hpend⟩ := stepped_keeps s.isHead s.crawl
  refine ⟨_, exec_next_of hr (show crawlStep s = _ from hstep), hcounter, hperiod, hstaged, ?_, ?_, ?_, ?_,
    ⟨_, judged_stepped s hold pending, hhold, htape⟩,
    fun b hb hn => hnear hb hn, fun b hb hs ht hq hl hribbon => ?_, fun c hc hp => hjudged c hc hp, hheld,
    fun h => hdue h, hkeep, hnone,
    fun r hr hseg hl hT hwait => hmark hm hr hseg hl hT hwait, hseg, hoff, hlevel, hsil, hr, rfl, rfl, rfl,
    rfl, rfl, rfl, rfl, rfl, rfl, rfl, rfl, rfl, rfl⟩
  · rintro (hhead | hsteady)
    · rw [hhead]
      exact stepped_of_head s.crawl
    · exact stepped_of_steady hsteady
  · intro hhead hslew hphase
    rw [hhead, stepped_follower, advance_of_phase (c := s.crawl.pass) hslew hphase]
    exact ⟨rfl, rfl, rfl⟩
  · intro hhead hslew hphase
    rw [hhead, stepped_follower, advance_of_ahead (c := s.crawl.pass) hslew hphase]
    exact ⟨rfl, rfl, rfl⟩
  · intro hhead hslew hphase
    rw [hhead, stepped_follower, advance_of_behind (c := s.crawl.pass) hslew hphase]
    exact ⟨rfl, rfl, rfl⟩
  · obtain ⟨r, hr⟩ := Option.isSome_iff_exists.1 hribbon
    exact hunsent hb hs ht hl hr hq

end Sys2Proof.Machine
end

section
/-!
PROOFS. Handoffs (R91, R99 to R107): the offset, the placement of the characters one at a time, and the
handing on that follows.
-/
namespace Sys2Proof.Machine

/-! ### The place of a character (R102) -/

section Place
variable {c : TapeChar} {hold : List TapeChar}

theorem holdBelow_append_holdAbove (i : Col) (hold : List TapeChar) :
    holdBelow i hold ++ holdAbove i hold = hold := List.takeWhile_append_dropWhile

theorem index_of_mem_holdBelow {i : Col} {k : TapeChar} (h : k ∈ holdBelow i hold) : sdiff k.index i < 0 :=
  of_decide_eq_true (p := sdiff k.index i < 0) (List.mem_takeWhile_imp (p := TapeChar.below i) h)

theorem index_of_head_holdAbove {i : Col} {k : TapeChar} (h : (holdAbove i hold).head? = some k) :
    0 ≤ sdiff k.index i := by
  have hnot := List.head?_dropWhile_not (TapeChar.below i) hold
  rw [show hold.dropWhile (TapeChar.below i) = holdAbove i hold from rfl, h] at hnot
  simpa [TapeChar.below] using hnot

/-- R102: what drops a character. -/
theorem dropsChar_iff : dropsChar c hold = true ↔ (∃ k ∈ hold, k.index = c.index) ∨
    (∃ p, (holdBelow c.index hold).getLast? = some p ∧ sdiff c.entry p.entry < 6) ∨
    (∃ q, (holdAbove c.index hold).head? = some q ∧ sdiff q.entry c.entry < 6) ∨ 48 ≤ hold.length := by
  have horder : inOrder c hold = false ↔
      (∃ p, (holdBelow c.index hold).getLast? = some p ∧ sdiff c.entry p.entry < 6) ∨
      (∃ q, (holdAbove c.index hold).head? = some q ∧ sdiff q.entry c.entry < 6) := by
    unfold inOrder farEnough
    rw [Bool.and_eq_false_iff]
    refine or_congr ?_ ?_
    · cases (holdBelow c.index hold).getLast? <;> simp
    · cases (holdAbove c.index hold).head? <;> simp
  have hany : hold.any (fun k => k.index == c.index) = true ↔ ∃ k ∈ hold, k.index = c.index := by simp
  rw [dropsChar, Bool.or_eq_true, Bool.or_eq_true, Bool.not_eq_true', decide_eq_true_eq, horder, hany, or_assoc,
    or_assoc]
  exact Iff.rfl

end Place

/-! ### Placement (R102, R103) -/

/-- R102, R103: the model's placement of a character places it. -/
theorem placeChar_places (c : TapeChar) (s : State) : placesChar c s (placeChar c s) := by
  refine ⟨holdBelow c.index s.crawl.hold, holdAbove c.index s.crawl.hold,
    (holdBelow_append_holdAbove _ _).symm, fun k => index_of_mem_holdBelow, fun k => index_of_head_holdAbove,
    fun hdrop => ?_, fun hnew hbefore hafter hroom => ?_⟩
  · rw [placeChar, if_pos (dropsChar_iff.2 hdrop)]
    rfl
  · have hkeep : dropsChar c s.crawl.hold = false := by
      refine Bool.eq_false_iff.2 fun hdrop => ?_
      rcases dropsChar_iff.1 hdrop with ⟨k, hk, hi⟩ | ⟨p, hp, hlt⟩ | ⟨q, hq, hlt⟩ | hfull
      · exact hnew k hk hi
      · exact absurd (hbefore p hp) (Int.not_le.2 hlt)
      · exact absurd (hafter q hq) (Int.not_le.2 hlt)
      · omega
    have hplace : placeChar c s = if s.moving && c.passed s.leftCol then
          if s.isTail then s.count .lateChars
          else (s.count .lateChars).onCrawl (fun k => { k with hold := insertChar c k.hold })
        else s.onCrawl (fun k => { k with hold := insertChar c k.hold }) := by
      rw [placeChar, if_neg (by simp [hkeep])]
    rw [hplace]
    refine ⟨fun hm hp ht => ?_, fun hm hp ht => ?_, fun h => ?_⟩
    · rw [hm, TapeChar.passed, decide_eq_true hp, ht]
      rfl
    · rw [hm, TapeChar.passed, decide_eq_true hp, ht]
      rfl
    · have hnot : (s.moving && c.passed s.leftCol) = false := by
        rcases h with h | h
        · rw [h, Bool.false_and]
        · rw [TapeChar.passed, decide_eq_false (Int.not_lt.2 h), Bool.and_false]
      rw [hnot]
      rfl

theorem placeChars_places (i : Col) (cs : List HandoffChar) (s : State) :
    placesChars i cs s (placeChars i cs s) := by
  induction cs generalizing i s with
  | nil => rfl
  | cons c cs ih => exact ⟨_, placeChar_places _ s, ih _ _⟩

/-- What the placement of characters changes: the hold, and the tallies but for that of Pace jumps. -/
def placesOnly (s t : State) : Prop := ∃ hold tallies,
  t = { s with crawl := { s.crawl with hold := hold }, tallies := tallies } ∧
    tallies.paceJumps = s.tallies.paceJumps ∧ (s.crawl.hold.length ≤ 48 → hold.length ≤ 48)

theorem placeChar_placesOnly (c : TapeChar) (s : State) : placesOnly s (placeChar c s) := by
  have hins : dropsChar c s.crawl.hold = false → (insertChar c s.crawl.hold).length ≤ 48 := fun hd => by
    rw [insertChar_length]
    exact length_lt_of_dropsChar hd
  rcases placeChar_cases c s with ⟨-, e⟩ | ⟨-, -, -, -, e⟩ | ⟨hd, -, -, -, e⟩ | ⟨hd, -, e⟩ <;> rw [e]
  · exact ⟨s.crawl.hold, _, rfl, rfl, id⟩
  · exact ⟨s.crawl.hold, _, rfl, rfl, id⟩
  · exact ⟨insertChar c s.crawl.hold, _, rfl, rfl, fun _ => hins hd⟩
  · exact ⟨insertChar c s.crawl.hold, _, rfl, rfl, fun _ => hins hd⟩

theorem placeChars_placesOnly (i : Col) (cs : List HandoffChar) (s : State) :
    placesOnly s (placeChars i cs s) := by
  induction cs generalizing i s with
  | nil => exact ⟨_, _, rfl, rfl, id⟩
  | cons c cs ih =>
    obtain ⟨hold, tallies, e, hjumps, hlen⟩ := placeChar_placesOnly ⟨i, c.entry, c.glyph, c.attr, false⟩ s
    obtain ⟨hold', tallies', e', hjumps', hlen'⟩ := ih (i + 1) (placeChar ⟨i, c.entry, c.glyph, c.attr, false⟩ s)
    refine ⟨hold', tallies', ?_, ?_, fun h => hlen' ?_⟩
    · rw [placeChars, e', e]
    · rw [hjumps', e, hjumps]
    · rw [e]
      exact hlen h

/-! ### The offset (R91, R101) -/

section Offset
variable {o o' : BitVec 16} {s : State}

theorem takeOffset_of_start (ho : s.crawl.offset = none) (hw : s.crawl.segState = .waiting)
    (hp : s.crawl.paceHeard = true) :
    takeOffset o s = enterRunning (s.onCrawl (fun c => { c with offset := some o })) := by
  simp only [takeOffset, ho, hw, hp, and_self, if_true]

theorem takeOffset_of_unknown (ho : s.crawl.offset = none)
    (h : s.crawl.segState ≠ .waiting ∨ s.crawl.paceHeard = false) :
    takeOffset o s = s.onCrawl (fun c => { c with offset := some o }) := by
  have hnot : ¬ (s.crawl.segState = .waiting ∧ s.crawl.paceHeard = true) := by
    rintro ⟨hw, hp⟩
    rcases h with h | h
    · exact h hw
    · simp [hp] at h
  simp only [takeOffset, ho, if_neg hnot]

theorem takeOffset_of_same (ho : s.crawl.offset = some o) : takeOffset o s = s := by
  simp only [takeOffset, ho, if_true]

theorem takeOffset_of_change (ho : s.crawl.offset = some o') (hne : o' ≠ o) :
    takeOffset o s = (s.count .paceJumps).onCrawl (fun c => { c with offset := some o }) := by
  simp only [takeOffset, ho, if_neg hne]

/-- R91: a segment on its entry to RUNNING, before its hold is judged. -/
def State.startedWith (s : State) (o : BitVec 16) : State := { s with crawl := { s.crawl with
  offset := some o, segState := .running, silence := some 0, counter := 0,
  period := pacePeriod s.crawl.paceLevel, staged := none } }

theorem takeOffset_judged (ho : s.crawl.offset = none) (hw : s.crawl.segState = .waiting)
    (hp : s.crawl.paceHeard = true) : takeOffset o s = judgeHold (s.startedWith o) := by
  rw [takeOffset_of_start ho hw hp, enterRunning]
  rfl

/-- A segment that waits for its offset alone. -/
def State.awaitsOffset (s : State) : Prop :=
  s.crawl.segState = .waiting ∧ s.crawl.offset = none ∧ s.crawl.paceHeard = true

/-- What the taking of an offset can do: the entry to RUNNING, or the offset and a count of its change. -/
theorem takeOffset_eq (o : BitVec 16) (s : State) :
    (s.awaitsOffset ∧ ∃ hold q, takeOffset o s = (s.startedWith o).withHoldAndTape hold q ∧
      hold.length ≤ s.crawl.hold.length) ∨
    (¬ s.awaitsOffset ∧ takeOffset o s = { s with
      crawl := { s.crawl with offset := some o }
      tallies := { s.tallies with paceJumps :=
        if s.crawl.offset.isSome ∧ s.crawl.offset ≠ some o then saturate s.tallies.paceJumps
        else s.tallies.paceJumps } }) := by
  by_cases hwait : s.awaitsOffset
  · obtain ⟨hw, ho, hp⟩ := hwait
    obtain ⟨hold, q, e, -, -, hlen⟩ := judgeHold_eq (s.startedWith o)
    exact .inl ⟨⟨hw, ho, hp⟩, hold, q, (takeOffset_judged ho hw hp).trans e, hlen⟩
  · refine .inr ⟨hwait, ?_⟩
    cases ho : s.crawl.offset with
    | none =>
      have hnot : s.crawl.segState ≠ .waiting ∨ s.crawl.paceHeard = false := by
        by_contra hcon
        simp only [not_or, not_not, Bool.not_eq_false] at hcon
        exact hwait ⟨hcon.1, ho, hcon.2⟩
      rw [takeOffset_of_unknown ho hnot]
      rfl
    | some n =>
      by_cases hn : n = o
      · subst hn
        rw [takeOffset_of_same ho, if_neg (by simp), ← ho]
      · rw [takeOffset_of_change ho hn, if_pos (by simp [hn])]
        rfl

end Offset

/-! ### A Handoff taken (R100 to R104) -/

theorem readHandoff_length {f : Frame} {m : HandoffMsg} (h : readHandoff f = some m) :
    1 ≤ m.chars.length ∧ m.chars.length ≤ 4 := by
  unfold readHandoff at h
  split_ifs at h with hok
  obtain rfl := Option.some.inj h
  obtain ⟨hpos, hle, -⟩ := hok
  simpa using ⟨hpos, hle⟩

theorem exec_handoff {f : Frame} {m : HandoffMsg} {s : State} (h : s.canTake .handoff f)
    (hown : s.isOwnSegment f.dest = true) (hhead : s.isHead = false) (hm : readHandoff f = some m) :
    exec (.handoff f) s = .next (takeHandoff m s.dispatched) := by
  refine exec_next_of h.1 (handled_of_taken h hown ?_)
  simp only [handoffEffect, hm, hhead, Bool.false_eq_true, if_false]

/-- R105: what follows the placements of a Handoff. -/
theorem forwardIfMoving_cases (s : State) : (s.moving = true → handsOver s (forwardIfMoving s)) ∧
    (s.moving = false → forwardIfMoving s = s) ∧
    ∃ hold q, forwardIfMoving s = s.withHoldAndTape hold q := by
  obtain ⟨hold, q, e, -⟩ := forward_eq Config.holdSize s
  refine ⟨fun hm => ?_, fun hm => if_neg (by simp [hm]), ?_⟩
  · rw [forwardIfMoving, if_pos hm]
    exact forward_handsOver s
  · unfold forwardIfMoving
    split_ifs
    · exact ⟨hold, q, e⟩
    · exact ⟨_, _, s.withHoldAndTape_self.symm⟩

/-- R100 to R104: all that a Handoff can do: with the entry to RUNNING, or without it. -/
theorem takeHandoff_eq (m : HandoffMsg) (s : State) :
    (s.awaitsOffset ∧ ∃ hold q tallies, takeHandoff m s =
      ((s.startedWith m.offset).withHoldAndTape hold q).withTallies tallies ∧
        tallies.paceJumps = s.tallies.paceJumps) ∨
    (¬ s.awaitsOffset ∧ ∃ hold q tallies, takeHandoff m s =
      ((s.onCrawl (fun c => { c with offset := some m.offset })).withHoldAndTape hold q).withTallies tallies ∧
        tallies.paceJumps = if s.crawl.offset.isSome ∧ s.crawl.offset ≠ some m.offset then
          saturate s.tallies.paceJumps else s.tallies.paceJumps) := by
  obtain ⟨hold, tallies, hb, hjumps, -⟩ := placeChars_placesOnly m.first m.chars (takeOffset m.offset s)
  obtain ⟨-, -, hold', q', ht⟩ :=
    forwardIfMoving_cases (placeChars m.first m.chars (takeOffset m.offset s))
  rcases takeOffset_eq m.offset s with ⟨hwait, hold, q, e, -⟩ | ⟨hnot, e⟩
  · refine .inl ⟨hwait, hold', q', tallies, ?_, by rw [hjumps, e]; rfl⟩
    rw [takeHandoff, ht, hb, e]
    rfl
  · refine .inr ⟨hnot, hold', q', tallies, ?_, by rw [hjumps, e]⟩
    rw [takeHandoff, ht, hb, e]
    rfl

/-- What a Handoff leaves of a state. -/
theorem takeHandoff_keeps (m : HandoffMsg) (s : State) :
    (takeHandoff m s).crawl.offset = some m.offset ∧
    (takeHandoff m s).crawl.stepCount = s.crawl.stepCount ∧ (takeHandoff m s).crawl.slew = s.crawl.slew ∧
    (takeHandoff m s).crawl.paceLevel = s.crawl.paceLevel ∧ (takeHandoff m s).composer = s.composer ∧
    (takeHandoff m s).line.generalQueue = s.line.generalQueue ∧
    (takeHandoff m s).line.slots = s.line.slots := by
  rcases takeHandoff_eq m s with ⟨-, hold, q, tallies, e, -⟩ | ⟨-, hold, q, tallies, e, -⟩ <;> rw [e] <;>
    exact ⟨rfl, rfl, rfl, rfl, rfl, rfl, rfl⟩

/-- R91, R101: the count of a changed offset, and the entry to RUNNING. -/
theorem takeHandoff_starts (m : HandoffMsg) (s : State) :
    ((takeHandoff m s).tallies.paceJumps = if s.crawl.offset.isSome ∧ s.crawl.offset ≠ some m.offset then
      saturate s.tallies.paceJumps else s.tallies.paceJumps) ∧
    (s.awaitsOffset → (takeHandoff m s).crawl.segState = .running ∧
      (takeHandoff m s).crawl.silence = some 0 ∧ (takeHandoff m s).crawl.counter = 0 ∧
      (takeHandoff m s).crawl.period = pacePeriod s.crawl.paceLevel) ∧
    (¬ s.awaitsOffset → (takeHandoff m s).crawl.segState = s.crawl.segState ∧
      (takeHandoff m s).crawl.silence = s.crawl.silence ∧
      (takeHandoff m s).crawl.counter = s.crawl.counter ∧
      (takeHandoff m s).crawl.period = s.crawl.period) := by
  rcases takeHandoff_eq m s with ⟨hwait, hold, q, tallies, e, hjumps⟩ | ⟨hnot, hold, q, tallies, e, hjumps⟩ <;>
    rw [e]
  · have hnone : ¬ (s.crawl.offset.isSome ∧ s.crawl.offset ≠ some m.offset) := fun hcon => by
      rw [hwait.2.1] at hcon
      exact absurd hcon.1 (by simp)
    refine ⟨?_, fun _ => ⟨rfl, rfl, rfl, rfl⟩, fun hnot => absurd hwait hnot⟩
    rw [if_neg hnone]
    exact hjumps
  · exact ⟨hjumps, fun hwait => absurd hwait hnot, fun _ => ⟨rfl, rfl, rfl, rfl⟩⟩

/-- Settles O50: by the offset taken, the characters placed, and the batches handed on. -/
theorem handoffPlacesCharacters : Obligations.HandoffPlacesCharacters := by
  intro f m s h hown hhead hm
  obtain ⟨hpos, hle⟩ := readHandoff_length hm
  have hplaces := placeChars_places m.first m.chars (takeOffset m.offset s.dispatched)
  obtain ⟨hold, tallies, hb, -, hlen⟩ :=
    placeChars_placesOnly m.first m.chars (takeOffset m.offset s.dispatched)
  obtain ⟨hover, hstill, -⟩ :=
    forwardIfMoving_cases (placeChars m.first m.chars (takeOffset m.offset s.dispatched))
  have hmoving : (placeChars m.first m.chars (takeOffset m.offset s.dispatched)).moving =
      (takeOffset m.offset s.dispatched).moving := by rw [hb]; rfl
  rw [hmoving] at hover hstill
  obtain ⟨hjumps, hstarts, hkeeps⟩ := takeHandoff_starts m s.dispatched
  obtain ⟨hoffset, hsteps, hslew, hlevel, hcomposer, hgeneral, hslots⟩ := takeHandoff_keeps m s.dispatched
  have htape := takeHandoff_tape s.dispatched m
  refine ⟨hpos, hle, takeOffset m.offset s.dispatched,
    placeChars m.first m.chars (takeOffset m.offset s.dispatched), takeHandoff m s.dispatched,
    exec_handoff h hown hhead hm, fun ho hw hp => ?_,
    fun ho hnot => takeOffset_of_unknown (s := s.dispatched) ho hnot,
    fun ho => takeOffset_of_same (s := s.dispatched) ho,
    fun o ho hne => takeOffset_of_change (s := s.dispatched) ho hne, hplaces, fun hl => ?_,
    hover, hstill, hoffset, hjumps, fun hw ho hp => hstarts ⟨hw, ho, hp⟩,
    fun hnot => hkeeps fun ⟨hw, ho, hp⟩ => hnot ⟨hw, ho, hp⟩, hsteps, hslew, hlevel, htape.straps,
    htape.tickCount, htape.table, htape.cells, hcomposer, htape.lamps, htape.terminals, htape.askTag, hgeneral,
    hslots, htape.lineSilence, htape.faultLamp⟩
  · rw [takeOffset_judged (s := s.dispatched) ho hw hp]
    exact judgeHold_judged _
  · rw [hb]
    refine hlen ?_
    rcases takeOffset_eq m.offset s.dispatched with ⟨-, hold, q, e, hl'⟩ | ⟨-, e⟩ <;> rw [e]
    · exact hl'.trans hl
    · exact hl

end Sys2Proof.Machine
end

section
/-!
PROOFS. Pace marks taken (R91, R92, R96, R111 to R114): the level, and the correction of the step count.
-/
namespace Sys2Proof.Machine

section Pace
variable {f : Frame} {m : PaceMsg} {s : State}

theorem exec_pace (h : s.canTake .pace f) (hd : f.dest = 0) (hm : readPace f = some m) :
    exec (.pace f) s = .next (crawlPace m s.dispatched) :=
  exec_next_of h.1 (handled_map_of_taken h (by simp [hd]) hm)

theorem crawlPace_of_follower (hr : s.straps.ribbon = some m.ribbon) (hseg : s.straps.segment ≠ 0) :
    crawlPace m s = takePace m s := if_pos (by simp [followsPace, hr, hseg])

theorem crawlPace_of_other (h : s.straps.ribbon ≠ some m.ribbon ∨ s.straps.segment = 0) :
    crawlPace m s = s := by
  refine if_neg fun hf => ?_
  simp only [followsPace, Bool.and_eq_true, beq_iff_eq, bne_iff_ne] at hf
  exact h.elim (fun h => h hf.1) fun h => hf.2 h

/-! ### In WAITING (R91, R114) -/

theorem takePace_of_waiting (hw : s.crawl.segState = .waiting) (ho : s.crawl.offset = none) :
    takePace m s = s.onCrawl (fun c => (c.hearPace m.level).setSteps m.steps) := by
  simp only [takePace, hw, ho, Option.isSome_none, Bool.false_eq_true, if_false]

/-- R91: a segment whose offset is known on its entry to RUNNING, before its hold is judged. -/
def State.startedAt (s : State) (m : PaceMsg) : State := { s with crawl := { s.crawl with
  paceHeard := true, paceLevel := m.level, stepCount := m.steps, slew := 0, segState := .running, counter := 0,
  period := pacePeriod m.level, staged := none, silence := some 0 } }

theorem takePace_of_start (hw : s.crawl.segState = .waiting) (ho : s.crawl.offset.isSome) :
    takePace m s = judgeHold (s.startedAt m) := by
  simp only [takePace, hw, ho, if_true]
  rfl

/-! ### In RUNNING and COASTING (R92, R112, R113) -/

/-- R92, R112: a moving segment that has heard a Pace, before the correction. -/
def State.heard (s : State) (m : PaceMsg) : State := { s with crawl := { s.crawl with
  paceHeard := true, paceLevel := m.level, staged := some (pacePeriod m.level), silence := some 0,
  segState := .running } }

theorem takePace_of_moving (hm : s.moving = true) : takePace m s = correctSteps m.steps (s.heard m) := by
  have hstate : s.crawl.segState = .running ∨ s.crawl.segState = .coasting := by
    simpa [State.moving] using hm
  rcases hstate with h | h
  · have hrun : s.onCrawl (fun c => { c.hearPace m.level with silence := some 0 }) = s.heard m := by
      rw [State.heard, ← h]
      rfl
    simp only [takePace, h, hrun]
  · simp only [takePace, h]
    rfl

variable {head : Col}

theorem correctSteps_of_near (h1 : -1 ≤ sdiff head s.crawl.stepCount) (h2 : sdiff head s.crawl.stepCount ≤ 1) :
    correctSteps head s = s.onCrawl (fun c => { c with slew := 0, phase := 0 }) := if_pos ⟨h1, h2⟩

theorem correctSteps_of_slew (h : 2 ≤ sdiff head s.crawl.stepCount ∧ sdiff head s.crawl.stepCount ≤ 48 ∨
    -48 ≤ sdiff head s.crawl.stepCount ∧ sdiff head s.crawl.stepCount ≤ -2) : correctSteps head s =
      s.onCrawl (fun c => { c with slew := sdiff head c.stepCount, phase := 0 }) := by
  rw [correctSteps, if_neg (by omega), if_pos (by omega)]

/-- R113: a segment whose step count jumps, before its hold is judged. -/
def State.jumped (s : State) (head : Col) : State := { s with
  crawl := { s.crawl with stepCount := head, slew := 0, phase := 0 }
  tallies := { s.tallies with paceJumps := saturate s.tallies.paceJumps } }

theorem correctSteps_of_jump (h : 48 < sdiff head s.crawl.stepCount ∨ sdiff head s.crawl.stepCount < -48) :
    correctSteps head s = judgeHold (s.jumped head) := by
  rw [correctSteps, if_neg (by omega), if_neg (by omega)]
  rfl

end Pace

/-- Settles O51: by the segment's state and the range of the difference. -/
theorem paceCorrectsSteps : Obligations.PaceCorrectsSteps := by
  intro f m s h hd hm
  have hexec := exec_pace h hd hm
  refine ⟨fun hother => ?_, fun hr hseg => ?_⟩
  · rw [hexec, crawlPace_of_other (s := s.dispatched) hother]
  have hexec : exec (.pace f) s = .next (takePace m s.dispatched) := by
    rw [hexec, crawlPace_of_follower (s := s.dispatched) hr hseg]
  refine ⟨fun hw ho => ?_, fun hw ho => ?_, fun hmov h1 h2 => ?_, fun hmov hslew => ?_, fun hmov hjump => ?_⟩
  · rw [hexec, takePace_of_waiting (s := s.dispatched) hw ho]
    rfl
  · rw [takePace_of_start (s := s.dispatched) hw ho] at hexec
    refine ⟨_, hexec, judgeHold_judged _, ?_⟩
    obtain ⟨hold, q, e⟩ := judgeHold_sameButHold (s.dispatched.startedAt m)
    rw [e]
    exact ⟨rfl, rfl, rfl, rfl, rfl, rfl, rfl, rfl, rfl, rfl, rfl, rfl, rfl⟩
  · rw [hexec, takePace_of_moving (s := s.dispatched) hmov,
      correctSteps_of_near (s := s.dispatched.heard m) h1 h2]
    rfl
  · rw [hexec, takePace_of_moving (s := s.dispatched) hmov,
      correctSteps_of_slew (s := s.dispatched.heard m) hslew]
    rfl
  · rw [takePace_of_moving (s := s.dispatched) hmov,
      correctSteps_of_jump (s := s.dispatched.heard m) hjump] at hexec
    have hjudged := judgeHold_holdJudged ((s.dispatched.heard m).jumped m.steps)
    refine ⟨_, hexec, judgeHold_judged _, ?_⟩
    obtain ⟨hold, q, e⟩ := judgeHold_sameButHold ((s.dispatched.heard m).jumped m.steps)
    rw [e] at hjudged ⊢
    exact ⟨rfl, rfl, rfl, rfl, rfl, rfl, rfl, rfl, rfl, rfl, hjudged, rfl, rfl, rfl, rfl, rfl⟩

end Sys2Proof.Machine
end

section
/-!
PROOFS. Composition (R69 to R76, R81, R84, R85, R110): the entry columns of a set stand 6 apart, and a head
asks for its Pace mark.
-/
namespace Sys2Proof.Machine

/-! ### Signed differences of columns -/

theorem sdiff_eq (a b : Col) : sdiff a b =
    if (a - b).toNat < 8388608 then ((a - b).toNat : Int) else (a - b).toNat - 16777216 := by
  rw [sdiff, BitVec.toInt_eq_toNat_cond]
  norm_num
  split_ifs <;> omega

/-- A column n further on lies n further on, short of half the circle. -/
theorem sdiff_add {a b : Col} {n : Nat} (h0 : 0 ≤ sdiff a b) (h : sdiff a b + n < 8388608) :
    sdiff (a + BitVec.ofNat 24 n) b = sdiff a b + n := by
  have hsub : a + BitVec.ofNat 24 n - b = (a - b) + BitVec.ofNat 24 n := by bv_omega
  rw [sdiff_eq] at h0 h
  rw [sdiff_eq, sdiff_eq, hsub]
  have hn : (BitVec.ofNat 24 n).toNat = n % 16777216 := BitVec.toNat_ofNat n 24
  have hlt := (a - b).isLt
  rw [BitVec.toNat_add, hn]
  split_ifs at * <;> omega

/-! ### The entry columns of a set (R85) -/

/-- R85: the entry column of the next character lies no further ahead than the next entry column. -/
theorem entryColumn_near {T : Col} {next : Option Col} :
    0 ≤ sdiff (entryColumn T next) (T + 1) ∧
      ∀ bound : Int, 0 ≤ bound → (∀ n, next = some n → sdiff n (T + 1) ≤ bound) →
        sdiff (entryColumn T next) (T + 1) ≤ bound := by
  have hself : sdiff (T + 1) (T + 1) = 0 := by simp [sdiff]
  cases next with
  | none =>
    show 0 ≤ sdiff (T + 1) (T + 1) ∧ ∀ bound : Int, 0 ≤ bound → _ → sdiff (T + 1) (T + 1) ≤ bound
    rw [hself]
    exact ⟨le_rfl, fun _ h _ => h⟩
  | some n =>
    unfold entryColumn
    simp only
    split_ifs with h
    · exact ⟨h.le, fun _ _ hb => hb n rfl⟩
    · rw [hself]
      exact ⟨le_rfl, fun _ h _ => h⟩

theorem entryColumn_of_ahead {T e : Col} (h : 0 < sdiff e (T + 1)) : entryColumn T (some e) = e := if_pos h

/-- R84, R85: the characters of a set stand 6 columns apart from the first entry column on. -/
theorem composeSet_entries (set : List (Glyph × Attr)) (s : State) (hlen : 6 * set.length < 4194304)
    (hnear : ∀ n, s.composer.nextEntry = some n →
      sdiff n (s.crawl.stepCount + 1) + 6 * set.length < 8388608) :
    ∃ new : List TapeChar, (composeSet set s).crawl.hold = s.crawl.hold ++ new ∧
      (∀ i c, new[i]? = some c → c.entry =
        entryColumn s.crawl.stepCount s.composer.nextEntry + BitVec.ofNat 24 (6 * i)) ∧
      (set ≠ [] → (composeSet set s).composer.nextEntry =
        some (entryColumn s.crawl.stepCount s.composer.nextEntry + BitVec.ofNat 24 (6 * set.length))) := by
  induction set generalizing s with
  | nil => exact ⟨[], (List.append_nil _).symm, fun i c h => by simp at h, fun h => absurd rfl h⟩
  | cons x xs ih =>
    generalize he : entryColumn s.crawl.stepCount s.composer.nextEntry = e
    obtain ⟨hpos, hbound⟩ := entryColumn_near (T := s.crawl.stepCount) (next := s.composer.nextEntry)
    have hle := hbound (8388607 - 6 * (x :: xs).length) (by omega) fun n hn => by
      have := hnear n hn
      omega
    rw [he] at hpos hle
    rw [List.length_cons] at hlen hle
    have hnext : (composeChar s x).composer.nextEntry = some (e + 6) := by rw [← he]; rfl
    have hahead : sdiff (e + 6) (s.crawl.stepCount + 1) = sdiff e (s.crawl.stepCount + 1) + 6 :=
      sdiff_add (n := 6) hpos (by push_cast at *; omega)
    have hcol : entryColumn (composeChar s x).crawl.stepCount (composeChar s x).composer.nextEntry = e + 6 := by
      rw [hnext]
      exact entryColumn_of_ahead (by rw [composeChar_eq]; show 0 < sdiff (e + 6) (s.crawl.stepCount + 1); omega)
    obtain ⟨new, hhold, hentries, hlast⟩ := ih (composeChar s x) (by omega) fun n hn => by
      rw [hnext] at hn
      obtain rfl := Option.some.inj hn
      show sdiff (e + 6) (s.crawl.stepCount + 1) + _ < _
      push_cast at *
      omega
    rw [hcol] at hentries hlast
    have hadd : ∀ k : Nat, e + 6 + BitVec.ofNat 24 (6 * k) = e + BitVec.ofNat 24 (6 * (k + 1)) := fun k => by
      rw [Nat.mul_succ, Nat.add_comm, BitVec.ofNat_add, BitVec.add_assoc]
      rfl
    refine ⟨⟨s.composer.nextIndex, e, x.1, x.2, false⟩ :: new, ?_, fun i c hc => ?_, fun _ => ?_⟩
    · show (composeSet xs (composeChar s x)).crawl.hold = _
      rw [hhold, composeChar_eq, he]
      exact List.append_assoc _ [_] new
    · cases i with
      | zero =>
        obtain rfl := Option.some.inj hc
        simp
      | succ i =>
        rw [← hadd]
        exact hentries i c hc
    · show (composeSet xs (composeChar s x)).composer.nextEntry = _
      rw [List.length_cons, ← hadd]
      cases xs with
      | nil =>
        show (composeChar s x).composer.nextEntry = _
        rw [hnext]
        simp
      | cons y ys => exact hlast (List.cons_ne_nil _ _)

/-- R84, R85: the model's composition of a set composes it. -/
theorem composeSet_composed {set : List (Glyph × Attr)} (s : State) (hlen : set.length ≤ 48) :
    composed set s (composeSet set s) := by
  obtain ⟨new, e, heq, hset, hsent, hempty, -, hfirst, hindex⟩ := composeSet_eq set s
  have hhold : (composeSet set s).crawl.hold = s.crawl.hold ++ new := by rw [heq]; rfl
  have hnear : nextEntryNear s → ∀ n, s.composer.nextEntry = some n →
      sdiff n (s.crawl.stepCount + 1) + 6 * set.length < 8388608 := fun h n hn => by
    have := h n hn
    omega
  have hnew : (composeSet set s).crawl.hold.drop s.crawl.hold.length = new := by rw [hhold]; simp
  rw [composed, hnew]
  refine ⟨by rw [hhold]; simp, hset, by rw [heq]; rfl, fun h => by rw [heq]; exact hempty h,
    entryColumn s.crawl.stepCount s.composer.nextEntry, fun h => by rw [h]; rfl, fun n h => by rw [h]; rfl,
    fun i c hc => ⟨hindex i c hc, hsent c (List.mem_of_getElem? hc), fun h => ?_⟩, fun hne h => ?_⟩
  · by_cases hi : i = 0
    · subst hi
      cases new with
      | nil => simp at hc
      | cons d ds =>
        obtain rfl := Option.some.inj hc
        rw [hfirst d ds rfl]
        simp
    · obtain ⟨new', hhold', hentries, -⟩ := composeSet_entries set s (by omega) (hnear (h.resolve_left hi))
      obtain rfl : new = new' := List.append_cancel_left (hhold.symm.trans hhold')
      exact hentries i c hc
  · obtain ⟨-, -, -, hlast⟩ := composeSet_entries set s (by omega) (hnear h)
    exact hlast hne

/-- What a composition asks of the states before and after. -/
theorem composed_congr {set : List (Glyph × Attr)} {s s' t t' : State} (h : composed set s t)
    (hhold : s'.crawl.hold = s.crawl.hold) (hsteps : s'.crawl.stepCount = s.crawl.stepCount)
    (hindex : s'.composer.nextIndex = s.composer.nextIndex) (hentry : s'.composer.nextEntry = s.composer.nextEntry)
    (hhold' : t'.crawl.hold = t.crawl.hold) (hindex' : t'.composer.nextIndex = t.composer.nextIndex)
    (hentry' : t'.composer.nextEntry = t.composer.nextEntry) : composed set s' t' := by
  unfold composed nextEntryNear at *
  rwa [hhold, hsteps, hindex, hentry, hhold', hindex', hentry']

/-! ### The mark asked for (R72, R110) -/

theorem requestPace_asked (s : State) : paceAsked s (requestPace s) := by
  intro r hr hseg
  refine ⟨fun h => ?_, fun hl hwait => ⟨fun hlt => ?_, fun hle => ?_⟩⟩
  · have hself : requestPace s = s := by
      cases hl : s.listenOnly
      · rw [requestPace_of_head hr hseg hl, if_pos (h.resolve_left (by simp [hl]))]
      · exact requestPace_of_not_head (.inr hl)
    rw [hself]
    exact ⟨rfl, rfl⟩
  · rw [requestPace_of_head hr hseg hl, hwait, generalFull_of_lt hlt]
    exact ⟨rfl, rfl⟩
  · rw [requestPace_of_head hr hseg hl, hwait, generalFull_of_le hle]
    exact ⟨rfl, rfl⟩

/-- R72: the entry to a level. -/
theorem enterLevel_eq (n : Nat) (s : State) : ∃ general pending, enterLevel n s = { s with
    composer := { s.composer with level := n }
    crawl := { s.crawl with
      paceLevel := n, staged := some (pacePeriod n), pendingPace := pending }
    line := { s.line with generalQueue := general } } := by
  unfold enterLevel
  rcases requestPace_cases ((s.onComposer (fun c => { c with level := n })).onCrawl
    (fun c => { c with paceLevel := n, staged := some (pacePeriod n) })) with e | ⟨-, e⟩ | ⟨r, -, -, -, -, e⟩ <;>
    rw [e]
  · exact ⟨s.line.generalQueue, s.crawl.pendingPace, rfl⟩
  · exact ⟨s.line.generalQueue, true, rfl⟩
  · exact ⟨_, false, rfl⟩

theorem enterLevel_asked (n : Nat) (s : State) : paceAsked s (enterLevel n s) :=
  requestPace_asked ((s.onComposer (fun c => { c with level := n })).onCrawl
    (fun c => { c with paceLevel := n, staged := some (pacePeriod n) }))

theorem paceAsked_congr {s t t' : State} (h : paceAsked s t) (hq : t'.line.generalQueue = t.line.generalQueue)
    (hp : t'.crawl.pendingPace = t.crawl.pendingPace) : paceAsked s t' := by
  unfold paceAsked at *
  rwa [hq, hp]

/-- R69: what room there is for a set. -/
theorem roomFor_iff {n : Nat} {s : State} :
    roomFor n s = true ↔ awaiting s ≤ 2 ∧ s.crawl.hold.length + n ≤ 48 := by
  rw [roomFor, Bool.and_eq_true, decide_eq_true_eq, decide_eq_true_eq]
  exact Iff.rfl

end Sys2Proof.Machine
end

section
/-!
PROOFS. The takes of the front item and the idle decay (R69 to R76, R80 to R85).
-/
namespace Sys2Proof.Machine

/-! ### The take of a print item (R70 to R73, R80, R81) -/

/-- What the composition of a set changes. -/
theorem composeSet_withComposed (set : List (Glyph × Attr)) (s : State) :
    ∃ hold i e, composeSet set s = s.withComposed hold i e := by
  obtain ⟨new, e, heq, -⟩ := composeSet_eq set s
  exact ⟨_, _, _, heq⟩

/-- What the step of the level changes. -/
theorem stepLevel_eq (n : Nat) (s : State) : ∃ pace staged general pending, stepLevel n s = { s with
    composer := { s.composer with level := n }
    crawl := { s.crawl with paceLevel := pace, staged := staged, pendingPace := pending }
    line := { s.line with generalQueue := general } } := by
  unfold stepLevel
  split_ifs with h
  · subst h
    exact ⟨_, _, _, _, rfl⟩
  · obtain ⟨general, pending, e⟩ := enterLevel_eq n s
    exact ⟨n, some (pacePeriod n), general, pending, e⟩

section PrintTake
variable {x : PrintSet} {y : Symbol} {price lots : Nat} {kind : PrintKind} {rest : List TapeItem} {s : State}

/-- What the take of a print item changes. -/
theorem makePrintTake_eq (x : PrintSet) (y : Symbol) (price : Nat) (kind : PrintKind) (rest : List TapeItem)
    (s : State) : ∃ i e hold pace staged general pending, makePrintTake x y price kind rest s = { s with
      composer := { s.composer with
        printQueue := rest, idleTimer := if rest = [] then some 0 else s.composer.idleTimer, level := x.level,
        nextIndex := i, nextEntry := e, overflow := s.composer.overflow && !x.overflow,
        recent := recentOf x kind y price s.composer.recent }
      crawl := { s.crawl with hold := hold, paceLevel := pace, staged := staged, pendingPace := pending }
      line := { s.line with generalQueue := general } } := by
  obtain ⟨pace, staged, general, pending, hlevel⟩ := stepLevel_eq x.level s
  obtain ⟨hold, i, e, hset⟩ := composeSet_withComposed x.chars (stepLevel x.level s)
  refine ⟨i, e, hold, pace, staged, general, pending, ?_⟩
  rw [makePrintTake, hset, hlevel]
  rfl

/-- The crawl unit and the line after a take are as the step of the level leaves them, but for the hold. -/
theorem makePrintTake_level (x : PrintSet) (y : Symbol) (price : Nat) (kind : PrintKind)
    (rest : List TapeItem) (s : State) :
    (makePrintTake x y price kind rest s).line = (stepLevel x.level s).line ∧
    (makePrintTake x y price kind rest s).crawl.paceLevel = (stepLevel x.level s).crawl.paceLevel ∧
    (makePrintTake x y price kind rest s).crawl.staged = (stepLevel x.level s).crawl.staged ∧
    (makePrintTake x y price kind rest s).crawl.pendingPace = (stepLevel x.level s).crawl.pendingPace := by
  obtain ⟨hold, i, e, hset⟩ := composeSet_withComposed x.chars (stepLevel x.level s)
  rw [makePrintTake, hset]
  exact ⟨rfl, rfl, rfl, rfl⟩

theorem makePrintTake_of_same (h : x.level = s.composer.level) :
    (makePrintTake x y price kind rest s).crawl.paceLevel = s.crawl.paceLevel ∧
    (makePrintTake x y price kind rest s).crawl.staged = s.crawl.staged ∧
    (makePrintTake x y price kind rest s).line.generalQueue = s.line.generalQueue ∧
    (makePrintTake x y price kind rest s).crawl.pendingPace = s.crawl.pendingPace := by
  obtain ⟨hline, hpace, hstaged, hpending⟩ := makePrintTake_level x y price kind rest s
  rw [hline, hpace, hstaged, hpending, stepLevel, if_pos h]
  exact ⟨rfl, rfl, rfl, rfl⟩

theorem makePrintTake_of_change (h : x.level ≠ s.composer.level) :
    (makePrintTake x y price kind rest s).crawl.paceLevel = x.level ∧
    (makePrintTake x y price kind rest s).crawl.staged = some (pacePeriod x.level) ∧
    paceAsked s (makePrintTake x y price kind rest s) := by
  obtain ⟨hline, hpace, hstaged, hpending⟩ := makePrintTake_level x y price kind rest s
  have henter : stepLevel x.level s = enterLevel x.level s := if_neg h
  obtain ⟨-, -, hlevel, hperiod, -⟩ := enterLevel_keeps x.level s
  rw [henter] at hline hpace hstaged hpending
  exact ⟨hpace.trans hlevel, hstaged.trans hperiod,
    paceAsked_congr (enterLevel_asked x.level s) (by rw [hline]) hpending⟩

theorem makePrintTake_composed (hlen : x.chars.length ≤ 48) :
    composed x.chars s (makePrintTake x y price kind rest s) := by
  obtain ⟨pace, staged, general, pending, hlevel⟩ := stepLevel_eq x.level s
  refine composed_congr (composeSet_composed (stepLevel x.level s) hlen) ?_ ?_ ?_ ?_ rfl rfl rfl <;> rw [hlevel]

/-- R80, R81: the recent-tape list after a print's take. -/
theorem recentOf_printSet (n a : TickCount) (c : Composer) :
    recentOf (printSet n a c y price lots kind) kind y price c.recent =
      if kind = .late ∨ (kind = .regular ∧ (printSet n a c y price lots kind).level = 3 ∧
          (y, price) ∈ c.recent) then c.recent
        else ((y, price) :: c.recent.filter (fun e => e.1 != y)).take 16 := by
  have homitted : (printSet n a c y price lots kind).omitted = true ↔
      kind = .regular ∧ (printSet n a c y price lots kind).level = 3 ∧ (y, price) ∈ c.recent := by
    show isRepeat (levelAfter c.level (latenessOf n a)) kind y price c.recent = true ↔
      kind = .regular ∧ levelAfter c.level (latenessOf n a) = 3 ∧ (y, price) ∈ c.recent
    simp only [isRepeat, Bool.and_eq_true, beq_iff_eq, List.contains_iff_mem]
    tauto
  unfold recentOf
  refine if_congr ?_ rfl rfl
  rw [Bool.or_eq_true, homitted, beq_iff_eq, or_comm]

theorem printTake_of_room {id : PrintId} {a : TickCount} (hhead : s.isHead = true)
    (hq : s.composer.printQueue = .print y price lots kind id a :: rest) : printTake s =
      if roomFor (printSet s.tickCount a s.composer y price lots kind).chars.length s then
        makePrintTake (printSet s.tickCount a s.composer y price lots kind) y price kind rest s
      else s := by
  simp only [printTake, hq, hhead, Bool.true_and]

end PrintTake

/-- Settles O52: by the step of the level and the composition of the set. -/
theorem printTakeComposes : Obligations.PrintTakeComposes := by
  intro y price lots kind id a rest s hr hhead hq
  have htake := printTake_of_room hhead hq
  have hrecent := recentOf_printSet (y := y) (price := price) (lots := lots) (kind := kind) s.tickCount a
    s.composer
  have hlevel : (printSet s.tickCount a s.composer y price lots kind).level =
      levelAfter s.composer.level ((s.tickCount - a).toNat / 8) := rfl
  generalize printSet s.tickCount a s.composer y price lots kind = x at htake hrecent hlevel ⊢
  refine ⟨fun hroom => exec_next_of hr (htake.trans (if_neg (by simp [hroom]))), fun hawait hlen => ?_⟩
  rw [if_pos (roomFor_iff.2 ⟨hawait, hlen⟩)] at htake
  have hcomposed := makePrintTake_composed (y := y) (price := price) (kind := kind) (rest := rest)
    (s := s) (x := x) (by omega)
  have hsame := makePrintTake_of_same (y := y) (price := price) (kind := kind) (rest := rest) (s := s) (x := x)
  have hchange := makePrintTake_of_change (y := y) (price := price) (kind := kind) (rest := rest) (s := s)
    (x := x)
  obtain ⟨i, e, hold, pace, staged, general, pending, heq⟩ := makePrintTake_eq x y price kind rest s
  rw [heq] at htake hcomposed hsame hchange
  exact ⟨_, exec_next_of hr htake, rfl, rfl, hlevel, hsame, hchange, hcomposed, hrecent, rfl, rfl, rfl, rfl,
    rfl, rfl, rfl, rfl, rfl, rfl, rfl, rfl, rfl, rfl⟩

/-! ### The takes of cancel and status items (R74, R82, R83) -/

section TextTake
variable {text : List (Glyph × Attr)} {rest : List TapeItem} {s : State}

/-- R74: the take of a text that has room. -/
theorem takeText_of_room (hhead : s.isHead = true) (hawait : awaiting s ≤ 2)
    (hlen : s.crawl.hold.length + text.length ≤ 48) : ∃ hold i e, takeText text rest s = { s with
      composer := { s.composer with
        printQueue := rest, idleTimer := if rest = [] then some 0 else s.composer.idleTimer
        nextIndex := i, nextEntry := e }
      crawl := { s.crawl with hold := hold } } ∧ composed text s (takeText text rest s) := by
  have hroom : takeText text rest s = (composeSet text s).onComposer (Composer.withQueue rest) :=
    if_pos (by rw [hhead, roomFor_iff.2 ⟨hawait, hlen⟩]; rfl)
  obtain ⟨hold, i, e, hset⟩ := composeSet_withComposed text s
  refine ⟨hold, i, e, ?_, ?_⟩
  · rw [hroom, hset]
    rfl
  · rw [hroom]
    exact composed_congr (composeSet_composed s (by omega)) rfl rfl rfl rfl rfl rfl rfl

theorem takeText_of_crowd (h : 2 < awaiting s) : takeText text rest s = s := by
  refine if_neg fun hcon => ?_
  rw [Bool.and_eq_true, roomFor_iff] at hcon
  omega

theorem cancelTake_of_crowd (h : 2 < awaiting s) : cancelTake s = s := by
  unfold cancelTake
  split
  · exact takeText_of_crowd h
  · rfl

theorem statusTake_of_crowd (h : 2 < awaiting s) : statusTake s = s := by
  unfold statusTake
  split
  · exact takeText_of_crowd h
  · rfl

end TextTake

/-- Settles O53: both takes are the take of a text. -/
theorem cancelAndStatusTakes : Obligations.CancelAndStatusTakes := by
  intro rest s hr hhead
  refine ⟨fun y price lots hq hawait hlen => ?_, fun y st hq hawait hlen => ?_,
    fun h => ⟨exec_next_of hr (cancelTake_of_crowd h), exec_next_of hr (statusTake_of_crowd h)⟩⟩
  · obtain ⟨hold, i, e, heq, hcomposed⟩ := takeText_of_room (rest := rest) hhead hawait hlen
    have htake : effectOf .cancelTake s = takeText (cancelText y price lots) rest s := by
      simp only [effectOf, cancelTake, hq]
    rw [heq] at htake hcomposed
    exact ⟨_, exec_next_of hr htake, rfl, rfl, rfl, rfl, rfl, hcomposed, rfl, rfl, rfl, rfl, rfl, rfl, rfl, rfl⟩
  · obtain ⟨hold, i, e, heq, hcomposed⟩ := takeText_of_room (rest := rest) hhead hawait hlen
    have htake : effectOf .statusTake s = takeText (statusText y st) rest s := by
      simp only [effectOf, statusTake, hq]
    rw [heq] at htake hcomposed
    exact ⟨_, exec_next_of hr htake, rfl, rfl, rfl, rfl, rfl, hcomposed, rfl, rfl, rfl, rfl, rfl, rfl, rfl, rfl⟩

/-! ### The idle timer (R75, R76) -/

section Idle
variable {s : State} {n : Nat}

theorem idleExpiry_of_due {c : Composer} (ht : c.idleTimer = some n) (hn : 128 ≤ n) (hl : c.level = 0) :
    c.idleExpiry = { c with idleTimer := some 0 } := by
  simp only [Composer.idleExpiry, ht]
  exact if_pos ⟨hn, hl⟩

theorem idleExpiry_of_not_due {c : Composer} (h : c.idleTimer = none ∨ 0 < c.level ∨
    ∃ n, c.idleTimer = some n ∧ n < 128) : c.idleExpiry = c := by
  unfold Composer.idleExpiry
  split
  · next n hn =>
    refine if_neg fun ⟨hle, hl⟩ => ?_
    rcases h with h | h | ⟨k, hk, hlt⟩
    · simp [hn] at h
    · omega
    · obtain rfl : n = k := Option.some.inj (hn.symm.trans hk)
      omega
  · rfl

theorem decayDue_iff : decayDue s = true ↔ s.isHead = true ∧ 0 < s.composer.level ∧
    ∃ n, s.composer.idleTimer = some n ∧ 128 ≤ n := by
  unfold decayDue
  cases s.composer.idleTimer <;> simp [and_assoc]

/-- R76: a decay that is due and has room. -/
theorem idleDecay_of_due (hhead : s.isHead = true) (ht : s.composer.idleTimer = some n) (hn : 128 ≤ n)
    (hl : 0 < s.composer.level) (hawait : awaiting s ≤ 2)
    (hlen : s.crawl.hold.length + (lowerNotice (s.composer.level - 1)).length ≤ 48) : idleDecay s =
      (composeSet (lowerNotice (s.composer.level - 1)) (enterLevel (s.composer.level - 1) s)).onComposer
        (fun c => { c with idleTimer := some 0 }) :=
  if_pos (by rw [decayDue_iff.2 ⟨hhead, hl, n, ht, hn⟩, roomFor_iff.2 ⟨hawait, hlen⟩]; rfl)

theorem idleDecay_of_not_due (h : s.composer.idleTimer = none ∨ s.composer.level = 0 ∨
    (∃ n, s.composer.idleTimer = some n ∧ n < 128) ∨ 2 < awaiting s) : idleDecay s = s := by
  refine if_neg fun hcon => ?_
  rw [Bool.and_eq_true, decayDue_iff, roomFor_iff] at hcon
  obtain ⟨⟨-, hl, n, hn, hle⟩, hawait, -⟩ := hcon
  rcases h with h | h | ⟨k, hk, hlt⟩ | h
  · simp [hn] at h
  · omega
  · obtain rfl : n = k := Option.some.inj (hn.symm.trans hk)
    omega
  · omega

/-- What a decay changes. -/
theorem decayed_eq (text : List (Glyph × Attr)) (level : Nat) (s : State) (hlen : text.length ≤ 48) :
    ∃ i e hold pending general,
      (composeSet text (enterLevel level s)).onComposer (fun c => { c with idleTimer := some 0 }) = { s with
        composer := { s.composer with
          level := level, idleTimer := some 0, nextIndex := i, nextEntry := e }
        crawl := { s.crawl with
          paceLevel := level, staged := some (pacePeriod level), hold := hold, pendingPace := pending }
        line := { s.line with generalQueue := general } } ∧
      composed text s ((composeSet text (enterLevel level s)).onComposer
        (fun c => { c with idleTimer := some 0 })) ∧
      paceAsked s ((composeSet text (enterLevel level s)).onComposer
        (fun c => { c with idleTimer := some 0 })) := by
  obtain ⟨general, pending, hlevel⟩ := enterLevel_eq level s
  obtain ⟨hold, i, e, hset⟩ := composeSet_withComposed text (enterLevel level s)
  refine ⟨i, e, hold, pending, general, by rw [hset, hlevel]; rfl, ?_, ?_⟩
  · refine composed_congr (composeSet_composed (enterLevel level s) hlen) ?_ ?_ ?_ ?_ rfl rfl rfl <;> rw [hlevel]
  · refine paceAsked_congr (enterLevel_asked level s) ?_ ?_ <;> rw [hset] <;> rfl

end Idle

/-- Settles O54: by the thresholds of the timer and the level, and the composition of the notice. -/
theorem idleTimerAndDecay : Obligations.IdleTimerAndDecay := by
  intro s hr hhead
  have hexpiry : effectOf .idleTimerExpiry s = s.onComposer Composer.idleExpiry := if_pos hhead
  refine ⟨fun n ht hn hl => exec_next_of hr (hexpiry.trans ?_), fun h => exec_next_of hr (hexpiry.trans ?_),
    fun n ht hn hl hawait hlen => ?_, fun h => exec_next_of hr (idleDecay_of_not_due h)⟩
  · rw [State.onComposer, idleExpiry_of_due ht hn hl]
    rfl
  · rw [State.onComposer, idleExpiry_of_not_due h]
    rfl
  · have hdecay := idleDecay_of_due hhead ht hn hl hawait hlen
    obtain ⟨i, e, hold, pending, general, heq, hcomposed, hasked⟩ :=
      decayed_eq (lowerNotice (s.composer.level - 1)) (s.composer.level - 1) s (by omega)
    rw [heq] at hdecay hcomposed hasked
    exact ⟨_, exec_next_of hr hdecay, rfl, rfl, rfl, rfl, rfl, rfl, rfl, hcomposed, hasked, rfl, rfl, rfl, rfl,
      rfl, rfl, rfl⟩

end Sys2Proof.Machine
end

section
/-!
PROOFS. Attempts, holds and the end of a dispatch (R165, R177, R184 to R188, R190, R192).
-/
namespace Sys2Proof.Machine

/-! ### The start of an attempt (R177, R184) -/

section Start
variable {s : State} {f : TxFrame} {fs : List TxFrame}

theorem attemptStart_of_not_quiet (h : s.listenOnly = true ∨ s.line.sending.isSome ∨ s.line.quiet < 2 ∨
    (s.line.ownFrameWait = true ∧ s.line.quiet < 4)) : attemptStart s = s := by
  refine if_neg fun hmay => ?_
  simp only [mayStart, Bool.and_eq_true, Bool.not_eq_true', Option.isNone_iff_eq_none, decide_eq_true_eq] at hmay
  obtain ⟨⟨hl, hsending⟩, hquiet⟩ := hmay
  rcases h with h | h | h | ⟨hwait, h⟩
  · simp [h] at hl
  · simp [hsending] at h
  · split_ifs at hquiet <;> omega
  · rw [if_pos hwait] at hquiet
    omega

theorem mayStart_of_quiet {n : Nat} (hn : s.straps.station = some n) (hs : s.line.sending = none)
    (hq : (if s.line.ownFrameWait then 4 else 2) ≤ s.line.quiet) : mayStart s = true := by
  simp only [mayStart, State.listenOnly, hn, hs, decide_eq_true hq]
  rfl

theorem attemptStart_of_tape (hm : mayStart s = true) (h : s.line.tapeQueue = f :: fs) :
    attemptStart s = beginAttempt .tape f s := by
  simp only [attemptStart, hm, h, if_true]

theorem attemptStart_of_general (hm : mayStart s = true) (h : s.line.tapeQueue = []) :
    attemptStart s = attemptGeneral (withoutLostAnswers s) := by
  simp only [attemptStart, hm, h, if_true]

/-- R165: an Answer is lost where its symbol is not held. -/
theorem lostAnswer_iff (table : List QuoteRecord) (g : TxFrame) : lostAnswer table g = true ↔
    ∃ u tag y, g.payload = .answer u tag y ∧ findRecord y table = none := by
  unfold lostAnswer
  cases g.payload <;> simp

/-- R165: the Answers lost at the head of the general queue are withdrawn. -/
theorem dropWhile_lostAnswer {table : List QuoteRecord} {lost : List TxFrame}
    (hlost : ∀ g ∈ lost, ∃ u tag y, g.payload = .answer u tag y ∧ findRecord y table = none)
    (hf : ∀ u tag y, f.payload = .answer u tag y → (findRecord y table).isSome) :
    (lost ++ f :: fs).dropWhile (lostAnswer table) = f :: fs := by
  have hkeep : lostAnswer table f = false := by
    refine Bool.eq_false_iff.2 fun h => ?_
    obtain ⟨u, tag, y, hp, hnone⟩ := (lostAnswer_iff table f).1 h
    have := hf u tag y hp
    simp [hnone] at this
  rw [List.dropWhile_append_of_pos fun g hg => (lostAnswer_iff table g).2 (hlost g hg),
    List.dropWhile_cons_of_neg (by simp [hkeep])]

theorem attemptGeneral_of_head (h : s.line.generalQueue.dropWhile (lostAnswer s.table) = f :: fs) :
    attemptGeneral (withoutLostAnswers s) = beginAttempt .general f (s.onLine fun l =>
      { l with generalQueue := f :: fs }) := by
  have hlost : withoutLostAnswers s = s.onLine fun l => { l with generalQueue := f :: fs } := by
    rw [withoutLostAnswers, State.onLine, h]
    rfl
  rw [hlost]
  rfl

theorem attemptGeneral_of_empty (h : s.line.generalQueue = []) :
    attemptGeneral (withoutLostAnswers s) = s := by
  have hsame : withoutLostAnswers s = s := by
    rw [withoutLostAnswers, State.onLine, h, List.dropWhile_nil, ← h]
    rfl
  rw [hsame, attemptGeneral, h]

/-- R178, R184: the attempt that begins with a frame. -/
theorem beginAttempt_eq {n : Nat} (hn : s.straps.station = some n) (q : QueueId) (f : TxFrame) :
    beginAttempt q f s = { s with line := { s.line with
      sending := some ⟨q, f.payload.cls, ⟨f.dest, BitVec.ofNat 8 n, stampedBody s f.payload⟩, 0, 0, false⟩
      ownFrameWait := false
      quiet := 0 } } := by
  have horigin : s.originByte = BitVec.ofNat 8 n := by rw [State.originByte, hn]; rfl
  rw [beginAttempt, horigin]
  rfl

/-- R165: what an attempt stamps does not depend on the queues. -/
theorem stampedBody_onLine (l : Line → Line) (p : TxPayload) : stampedBody (s.onLine l) p = stampedBody s p := by
  cases p <;> rfl

end Start

/-- Settles O57: by the queue whose head is taken. -/
theorem attemptSendsQueueHead : Obligations.AttemptSendsQueueHead := by
  intro s hr
  refine ⟨fun h => exec_next_of hr (attemptStart_of_not_quiet h), fun n hn hs hq => ?_, fun r => rfl⟩
  have hmay := mayStart_of_quiet hn hs hq
  refine ⟨fun f fs ht => exec_next_of hr ((attemptStart_of_tape hmay ht).trans (beginAttempt_eq hn _ f)),
    fun lost f fs ht hg hlost hf => exec_next_of hr ?_, fun ht hg => exec_next_of hr ?_⟩
  · have hhead : s.line.generalQueue.dropWhile (lostAnswer s.table) = f :: fs := by
      rw [hg]
      exact dropWhile_lostAnswer hlost hf
    refine (attemptStart_of_general hmay ht).trans ((attemptGeneral_of_head hhead).trans ?_)
    rw [beginAttempt_eq (s := s.onLine _) hn, stampedBody_onLine]
    rfl
  · exact (attemptStart_of_general hmay ht).trans (attemptGeneral_of_empty hg)

/-! ### The outcome of an attempt (R185, R187, R188) -/

section Outcome
variable {s : State} {x : Sending} {f : TxFrame} {fs : List TxFrame}

theorem failedQueue_of_few (h : f.retries < 15) :
    failedQueue (f :: fs) = { f with retries := f.retries + 1 } :: fs ∧ abandonsHead (f :: fs) = false := by
  have hlimit : f.retries + 1 < Config.attemptLimit := Nat.add_lt_add_right h 1
  exact ⟨if_pos hlimit, decide_eq_false (Nat.not_le.2 hlimit)⟩

theorem failedQueue_of_last (h : 15 ≤ f.retries) :
    failedQueue (f :: fs) = fs ∧ abandonsHead (f :: fs) = true := by
  have hlimit : Config.attemptLimit ≤ f.retries + 1 := Nat.add_le_add_right h 1
  exact ⟨if_neg (Nat.not_lt.2 hlimit), decide_eq_true hlimit⟩

theorem onQueue_congr {q : QueueId} {g g' : List TxFrame → List TxFrame}
    (h : g (s.line.queue q) = g' (s.line.queue q)) : s.onQueue q g = s.onQueue q g' := by
  cases q
  · exact congrArg (fun l => s.onLine fun k => { k with tapeQueue := l }) h
  · exact congrArg (fun l => s.onLine fun k => { k with generalQueue := l }) h

theorem offLine_onQueue (q : QueueId) (g : List TxFrame → List TxFrame) :
    offLine (s.onQueue q g) = (offLine s).onQueue q g := by cases q <;> rfl

/-- R188: a failed attempt that is not the 16th. -/
theorem failAttempt_of_few {q : QueueId} (hq : s.line.queue q = f :: fs) (h : f.retries < 15) :
    failAttempt q s = (offLine s).onQueue q (fun _ => { f with retries := f.retries + 1 } :: fs) := by
  obtain ⟨hfailed, hkeep⟩ := failedQueue_of_few (fs := fs) h
  rw [failAttempt, hq, hkeep, if_neg Bool.false_ne_true, offLine_onQueue]
  refine onQueue_congr ?_
  show failedQueue (s.line.queue q) = _
  rw [hq, hfailed]

/-- R188: the 16th failed attempt abandons the frame. -/
theorem failAttempt_of_last {q : QueueId} (hq : s.line.queue q = f :: fs) (h : 15 ≤ f.retries) :
    failAttempt q s = (offLine (s.count .framesAbandoned)).onQueue q (fun _ => fs) := by
  obtain ⟨hfailed, habandon⟩ := failedQueue_of_last (fs := fs) h
  rw [failAttempt, hq, habandon, if_pos rfl, offLine_onQueue]
  refine onQueue_congr ?_
  show failedQueue (s.line.queue q) = _
  rw [hq, hfailed]

theorem canLose_iff : x.canLose = true ↔ x.inHold = false ∧ x.allSent = false := by
  rw [Sending.canLose, Bool.and_eq_true, Bool.not_eq_true', Bool.not_eq_true']

theorem canLose_of_hold (h : x.inHold = true ∨ x.allSent = true) : x.canLose = false := by
  rcases h with h | h <;> simp [Sending.canLose, h]

theorem heldOut_iff : x.heldOut = true ↔ x.inHold = true ∧ 24 ≤ x.held := by
  rw [Sending.heldOut, Bool.and_eq_true, decide_eq_true_eq]
  exact Iff.rfl

/-- R187, R188: the hold section ends before the last byte goes out. -/
theorem inHold_of_allSent (h : x.allSent = true) : x.inHold = false := by
  rw [Sending.allSent, Bool.and_eq_true] at h
  simp [Sending.inHold, h.1]

section OnLine
variable (hs : s.line.sending = some x)
include hs

theorem arbitrationLoss_of_sending : arbitrationLoss s = if x.canLose then loseAttempt x.queue s else s := by
  simp only [arbitrationLoss, hs]

theorem holdOut_of_sending : holdOut s = if x.heldOut then failAttempt x.queue s else s := by
  simp only [holdOut, hs]

theorem abandonFrame_of_sending : abandonFrame s = if abandonsHead (s.line.queue x.queue) then
      if x.canLose then loseAttempt x.queue s else if x.heldOut then failAttempt x.queue s else s
    else s := by
  simp only [abandonFrame, hs]

theorem attemptComplete_of_sending : attemptComplete s = if x.allSent then
      (offLine (s.onQueue x.queue List.tail)).onLine (fun l => { l with ownFrameWait := true }) else s := by
  simp only [attemptComplete, hs]

end OnLine

/-- R188: a frame abandoned: by a loss, by a hold-out, or not at all. -/
theorem abandonFrame_of_loss (hs : s.line.sending = some x) (hq : s.line.queue x.queue = f :: fs)
    (h : 15 ≤ f.retries) (hl : x.canLose = true) : abandonFrame s = loseAttempt x.queue s := by
  rw [abandonFrame_of_sending hs, hq, (failedQueue_of_last h).2, if_pos rfl, if_pos hl]

theorem abandonFrame_of_holdOut (hs : s.line.sending = some x) (hq : s.line.queue x.queue = f :: fs)
    (h : 15 ≤ f.retries) (ho : x.heldOut = true) : abandonFrame s = failAttempt x.queue s := by
  have hl : x.canLose = false := canLose_of_hold (.inl (heldOut_iff.1 ho).1)
  rw [abandonFrame_of_sending hs, hq, (failedQueue_of_last h).2, if_pos rfl, if_neg (by simp [hl]), if_pos ho]

theorem abandonFrame_of_not_due (hs : s.line.sending = some x) (hq : s.line.queue x.queue = f :: fs)
    (h : f.retries < 15 ∨ x.allSent = true ∨ (x.inHold = true ∧ x.held < 24)) : abandonFrame s = s := by
  rw [abandonFrame_of_sending hs, hq]
  rcases h with h | h | ⟨hhold, hheld⟩
  · rw [(failedQueue_of_few h).2, if_neg Bool.false_ne_true]
  · have hl := canLose_of_hold (.inr h)
    have ho : x.heldOut = false := by simp [Sending.heldOut, inHold_of_allSent h]
    rw [hl, ho]
    exact ite_self s
  · have hl := canLose_of_hold (.inl hhold)
    have ho : x.heldOut = false := Bool.eq_false_iff.2 fun h => by
      have := (heldOut_iff.1 h).2
      omega
    rw [hl, ho]
    exact ite_self s

end Outcome

/-- Settles O58: by the failures before this one and the section of the frame. -/
theorem attemptOutcomes : Obligations.AttemptOutcomes := by
  intro x f fs s hr hs hq
  have hqc : (s.count .arbitrationLosses).line.queue x.queue = f :: fs := hq
  have hloss := arbitrationLoss_of_sending hs
  have hout := holdOut_of_sending hs
  have hcomplete := attemptComplete_of_sending hs
  refine ⟨fun h => exec_next_of hr (hloss.trans (if_neg (by simp [canLose_of_hold h]))),
    fun h1 h2 h => exec_next_of hr ((hloss.trans (if_pos (canLose_iff.2 ⟨h1, h2⟩))).trans ?_),
    fun h1 h2 h => exec_next_of hr ((hloss.trans (if_pos (canLose_iff.2 ⟨h1, h2⟩))).trans ?_),
    fun h1 h2 h => exec_next_of hr ((hout.trans (if_pos (heldOut_iff.2 ⟨h1, h2⟩))).trans ?_),
    fun h1 h2 h => exec_next_of hr ((hout.trans (if_pos (heldOut_iff.2 ⟨h1, h2⟩))).trans ?_),
    fun h => exec_next_of hr (hout.trans (if_neg fun hcon => ?_)),
    fun h h1 h2 => exec_next_of hr ((abandonFrame_of_loss hs hq h (canLose_iff.2 ⟨h1, h2⟩)).trans ?_),
    fun h h1 h2 => exec_next_of hr ((abandonFrame_of_holdOut hs hq h (heldOut_iff.2 ⟨h1, h2⟩)).trans ?_),
    fun h => exec_next_of hr (abandonFrame_of_not_due hs hq h),
    fun h => exec_next_of hr ((hcomplete.trans (if_pos h)).trans ?_),
    fun h => exec_next_of hr (hcomplete.trans (if_neg (by simp [h])))⟩
  · exact failAttempt_of_few hqc h
  · exact failAttempt_of_last hqc h
  · exact failAttempt_of_few hq h
  · exact failAttempt_of_last hq h
  · obtain ⟨h1, h2⟩ := heldOut_iff.1 hcon
    rcases h with h | h
    · simp [h1] at h
    · omega
  · exact failAttempt_of_last hqc h
  · exact failAttempt_of_last hq h
  · have htail : s.onQueue x.queue List.tail = s.onQueue x.queue (fun _ => fs) := onQueue_congr (by rw [hq]; rfl)
    rw [htail]
    cases x.queue <;> rfl

/-! ### Holds and the end of a dispatch (R186, R192) -/

theorem holdsByte_iff (s : State) : holdsByte s = true ↔ s.line.assembler = .assembling ∧
    s.line.assembly.inHold = true ∧ s.concerns (byteAt s.line.assembly.bytes 0) = true ∧
    (∃ c k, s.line.assembly.cls = some c ∧ classOf c = some k) ∧ s.listenOnly = false ∧
    s.line.sending = none ∧ 2 ≤ s.line.slots.length := by
  have hclass : (s.line.assembly.cls.bind classOf).isSome = true ↔
      ∃ c k, s.line.assembly.cls = some c ∧ classOf c = some k := by
    cases s.line.assembly.cls <;> simp [Option.isSome_iff_exists]
  have hfull : slotFree s = false ↔ 2 ≤ s.line.slots.length :=
    (decide_eq_false_iff_not).trans Nat.not_lt
  simp only [holdsByte, Bool.and_eq_true, Bool.not_eq_true', decide_eq_true_eq, Option.isNone_iff_eq_none, hclass,
    hfull, and_assoc]

/-- Settles O59: by R186's conditions, all met or not, and the dispatch in progress. -/
theorem holdsAndDispatchEnd : Obligations.HoldsAndDispatchEnd := by
  intro s hr
  refine ⟨fun h1 h2 h3 h4 h5 h6 h7 => exec_next_of hr ?_, fun h => exec_next_of hr ?_,
    fun h => exec_next_of hr (if_pos h), fun h => exec_next_of hr (if_neg (by simp [h]))⟩
  · refine (if_pos ((holdsByte_iff s).2 ⟨h1, h2, h3, h4, h5, h6, h7⟩)).trans ?_
    split_ifs <;> rfl
  · refine if_neg fun hcon => ?_
    obtain ⟨h1, h2, h3, ⟨c, k, hc, hk⟩, h5, h6, h7⟩ := (holdsByte_iff s).1 hcon
    rcases h with h | h | h | h | h | h | h
    · exact h h1
    · simp [h] at h2
    · omega
    · simp [h] at h5
    · simp [h6] at h
    · simp [h] at h3
    · simp [h c hc] at hk

end Sys2Proof.Machine
end

section
/-!
PROOFS. The disposal of a frame at its completion (R166, R167, R181, R182, R189, R191, R205).
-/
namespace Sys2Proof.Machine

section Dispose
variable {x : Completed} {s : State}

/-- R181: a frame from another station that passes its check, before its disposal. -/
def State.heardGood (s : State) : State := { s with
  line := { s.line with completed := none }
  tallies := { s.tallies with goodFrames := saturate s.tallies.goodFrames }
  lineSilence := 0
  faultLamp := false }

theorem frameComplete_of_some (h : s.line.completed = some x) :
    frameComplete s = disposeFrame x (s.onLine fun l => { l with completed := none }) := by
  simp only [frameComplete, h]

theorem frameComplete_of_none (h : s.line.completed = none) : frameComplete s = s := by
  simp only [frameComplete, h]

theorem frameComplete_of_badCheck (h : s.line.completed = some x) (hc : x.check ≠ checkByte x.frame) :
    frameComplete s = (s.onLine fun l => { l with completed := none }).count .framesDiscarded :=
  (frameComplete_of_some h).trans (if_neg hc)

theorem frameComplete_of_own (h : s.line.completed = some x) (hc : x.check = checkByte x.frame)
    (ho : s.isOwnNumber x.frame.origin = true) :
    frameComplete s = s.onLine fun l => { l with completed := none } :=
  (frameComplete_of_some h).trans ((if_pos hc).trans (if_pos ho))

theorem frameComplete_of_good (h : s.line.completed = some x) (hc : x.check = checkByte x.frame)
    (ho : s.isOwnNumber x.frame.origin = false) : frameComplete s = disposeGood x s.heardGood :=
  (frameComplete_of_some h).trans ((if_pos hc).trans (if_neg (Bool.eq_false_iff.1 ho)))

theorem disposeGood_of_unassigned (h : classOf x.cls = none) :
    disposeGood x s = s.count .framesDiscarded := by
  simp only [disposeGood, h]

variable {c : MsgClass}

/-- R191: a frame that concerns this station. -/
theorem disposeGood_of_concerns (h : classOf x.cls = some c) (hd : s.concerns x.frame.dest = true) :
    disposeGood x s = if slotFree s then placeInSlot ⟨c, x.frame⟩ s else s.count .framesDiscarded := by
  simp only [disposeGood, h, hd, if_true]

/-- R166, R191: a frame that does not. -/
theorem disposeGood_of_other (h : classOf x.cls = some c) (hd : s.concerns x.frame.dest = false) :
    disposeGood x s =
      if c = .answer ∧ s.isOtherStation x.frame.dest ∧ holdsAnswer s ∧ slotFree s then
        placeInSlot ⟨c, x.frame⟩ (suppressBy x.frame s) else s := by
  simp only [disposeGood, h, hd, Bool.false_eq_true, if_false]

/-- R189: the general queue after a snooped Answer. -/
def State.queueAfterSnoop (s : State) (f : Frame) : List TxFrame :=
  match readAnswer f with
  | some m => (if s.sendingGeneral then s.line.generalQueue.take 1 else []) ++
      (waitingFrames s.sendingGeneral s.line.generalQueue).filter
        (fun g => !g.isAnswerTo f.dest m.terminal m.tag)
  | none => s.line.generalQueue

theorem suppressBy_eq (f : Frame) (s : State) :
    suppressBy f s = s.onLine fun l => { l with generalQueue := s.queueAfterSnoop f } := by
  unfold suppressBy State.queueAfterSnoop
  cases readAnswer f <;> rfl

theorem slotFree_of_lt (h : s.line.slots.length < 2) : slotFree s = true := decide_eq_true h

theorem slotFree_of_le (h : 2 ≤ s.line.slots.length) : slotFree s = false := decide_eq_false (Nat.not_lt.2 h)

end Dispose

/-- Settles O60: by the check, the origin, the class, the destination and the slots. -/
theorem frameCompleteDisposes : Obligations.FrameCompleteDisposes := by
  intro x s hr hx
  refine ⟨fun hc => exec_next_of hr (frameComplete_of_badCheck hx hc),
    fun hc ho => exec_next_of hr (frameComplete_of_own hx hc ho), fun hc ho => ?_⟩
  have hgood := frameComplete_of_good hx hc ho
  refine ⟨fun hnone => exec_next_of hr (hgood.trans (disposeGood_of_unassigned hnone)),
    fun c hcls hd hslot => exec_next_of hr (hgood.trans ?_),
    fun hcls hd hother hholds hslot queue hnone hsome => exec_next_of hr (hgood.trans ?_),
    fun c hcls hd hslot => exec_next_of hr (hgood.trans ?_),
    fun c hcls hd hnot => exec_next_of hr (hgood.trans ?_)⟩
  · exact (disposeGood_of_concerns (s := s.heardGood) hcls hd).trans (if_pos (slotFree_of_lt (s := s.heardGood) hslot))
  · have hqueue : s.heardGood.queueAfterSnoop x.frame = queue := by
      unfold State.queueAfterSnoop
      split
      · next m hm => exact (hsome m hm).symm
      · next hm => exact (hnone hm).symm
    refine (disposeGood_of_other (s := s.heardGood) hcls hd).trans ((if_pos ⟨rfl, hother, hholds,
      slotFree_of_lt (s := s.heardGood) hslot⟩).trans ?_)
    rw [suppressBy_eq, hqueue]
    rfl
  · refine (disposeGood_of_concerns (s := s.heardGood) hcls hd).trans (if_neg ?_)
    rw [slotFree_of_le (s := s.heardGood) hslot]
    exact Bool.false_ne_true
  · refine (disposeGood_of_other (s := s.heardGood) hcls hd).trans (if_neg ?_)
    rintro ⟨hanswer, hother, hholds, hfree⟩
    rcases hnot with h | h | h | h
    · exact h hanswer
    · exact Bool.eq_false_iff.1 h hother
    · exact Bool.eq_false_iff.1 h hholds
    · exact Bool.eq_false_iff.1 (slotFree_of_le (s := s.heardGood) h) hfree

end Sys2Proof.Machine
end

section
/-!
PROOFS. The byte on the line (R176, R178 to R181, R185, R187): what its sender and its receiver change, and
the assembly of a frame sent byte by byte.
-/
namespace Sys2Proof.Machine

/-! ### What the receiver changes (R178 to R181) -/

/-- t is s but for the assembler, the frame in assembly or completed, the hold it asserts, and the tallies of
discarded frames and corrected classes. -/
def asmOnly (s t : State) : Prop := t = { s with
  line := { s.line with
    assembler := t.line.assembler, assembly := t.line.assembly, completed := t.line.completed
    holding := t.line.holding, holdDrive := t.line.holdDrive }
  tallies := { s.tallies with
    framesDiscarded := t.tallies.framesDiscarded, classCorrections := t.tallies.classCorrections } }

theorem asmOnly.refl (s : State) : asmOnly s s := rfl

theorem asmOnly.trans {s t u : State} (h : asmOnly s t) (k : asmOnly t u) : asmOnly s u := by
  unfold asmOnly at *
  rw [h] at k
  exact k

section Receiver
variable (b : Byte) (s : State)

theorem breakFrame_asmOnly (next : AsmState) : asmOnly s (breakFrame next s) := by
  rcases breakFrame_cases next s with ⟨-, e⟩ | ⟨-, e⟩ <;> rw [e] <;> rfl

theorem takeClassByte_asmOnly : asmOnly s (takeClassByte b s) := by
  unfold takeClassByte
  split
  · split_ifs <;> rfl
  · exact breakFrame_asmOnly s _

theorem finishFrame_asmOnly : asmOnly s (finishFrame s) := by
  unfold finishFrame
  split_ifs <;> rfl

theorem takeFieldByte_asmOnly : asmOnly s (takeFieldByte b s) := by
  unfold takeFieldByte
  split
  · rfl
  · split_ifs
    · exact breakFrame_asmOnly s _
    · rfl
  · split_ifs
    · rfl
    · rfl
    · exact asmOnly.trans (t := s.onAssembly (Assembly.push b)) rfl (finishFrame_asmOnly _)

theorem takeByte_asmOnly : asmOnly s (takeByte b s) := by
  unfold takeByte
  split
  · exact takeClassByte_asmOnly b s
  · exact takeFieldByte_asmOnly b s

theorem byteAfterSync_asmOnly : asmOnly s (byteAfterSync b s) := by
  unfold byteAfterSync
  split_ifs
  · rfl
  · exact asmOnly.trans (t := beginFrame s) rfl (takeByte_asmOnly b _)

theorem assembleByte_asmOnly : asmOnly s (assembleByte b s) := by
  unfold assembleByte
  split_ifs
  · exact takeByte_asmOnly _ s
  · exact (breakFrame_asmOnly s _).trans (byteAfterSync_asmOnly b _)
  · rfl
  · exact takeByte_asmOnly b s

theorem skipByte_asmOnly : asmOnly s (skipByte b s) := by
  unfold skipByte
  split_ifs
  · rfl
  · exact byteAfterSync_asmOnly b s
  · rfl
  · rfl

theorem readByte_asmOnly : asmOnly s (readByte b s) := by
  unfold readByte
  split
  · rfl
  · split_ifs <;> rfl
  · exact assembleByte_asmOnly b s
  · exact skipByte_asmOnly b s

theorem receiverReads_asmOnly (levels : LineLevels) : asmOnly s (receiverReads levels s) := by
  unfold receiverReads
  split_ifs
  · exact readByte_asmOnly _ s
  · unfold framingError
    split
    · exact breakFrame_asmOnly s _
    · rfl
    · rfl
    · rfl

end Receiver

/-! ### What goes before the receiver (R176, R185, R191) -/

/-- The assembler, the frame in assembly and the frame awaiting disposal. -/
def State.viewed (s : State) (a : AsmState) (m : Assembly) (c : Option Completed) : Prop :=
  s.line.assembler = a ∧ s.line.assembly = m ∧ s.line.completed = c

/-- The disposal of a frame leaves the assembler and the frame on the line alone. -/
theorem disposeGood_views (x : Completed) (s : State) :
    (disposeGood x s).line.assembler = s.line.assembler ∧ (disposeGood x s).line.assembly = s.line.assembly ∧
    (disposeGood x s).line.completed = s.line.completed ∧
    (disposeGood x s).line.sending = s.line.sending := by
  rcases disposeGood_cases x s with e | e | ⟨c, -, -, -, e⟩ | ⟨-, -, -, e⟩ <;> rw [e]
  · exact ⟨rfl, rfl, rfl, rfl⟩
  · exact ⟨rfl, rfl, rfl, rfl⟩
  · exact ⟨rfl, rfl, rfl, rfl⟩
  · rw [suppressBy_eq]
    exact ⟨rfl, rfl, rfl, rfl⟩

theorem frameComplete_views (s : State) :
    (frameComplete s).viewed s.line.assembler s.line.assembly none ∧
      (frameComplete s).line.sending = s.line.sending := by
  unfold frameComplete
  split
  · next h => exact ⟨⟨rfl, rfl, h⟩, rfl⟩
  · next x h =>
    unfold disposeFrame
    split_ifs
    · exact ⟨⟨rfl, rfl, rfl⟩, rfl⟩
    · obtain ⟨ha, hm, hc, hs⟩ := disposeGood_views x (countGood (s.onLine fun l => { l with completed := none }))
      exact ⟨⟨ha, hm, hc⟩, hs⟩
    · exact ⟨⟨rfl, rfl, rfl⟩, rfl⟩

theorem failAttempt_viewed {s : State} {a : AsmState} {m : Assembly} {c : Option Completed} (q : QueueId)
    (h : s.viewed a m c) : (failAttempt q s).viewed a m c := by
  rcases failAttempt_cases q s with ⟨-, e⟩ | ⟨-, e⟩ <;> rw [e] <;> cases q <;> exact h

theorem senderReads_viewed {s : State} {a : AsmState} {m : Assembly} {c : Option Completed}
    (levels : LineLevels) (h : s.viewed a m c) : (senderReads levels s).viewed a m c := by
  rcases senderReads_cases levels s with e | ⟨x, -, -, e⟩ | ⟨x, -, -, e⟩ | ⟨x, -, -, e | e⟩ <;> rw [e]
  · exact h
  · exact failAttempt_viewed (s := s.count .arbitrationLosses) x.queue h
  · exact h
  · exact h
  · exact h

/-- R176: a byte as its sender drives it is read by the assembler, with no frame awaiting disposal. -/
theorem byteReceived_reads (b : Byte) {s : State} {a : AsmState} {m : Assembly} {c : Option Completed}
    (h : s.viewed a m c) : ∃ u : State, u.viewed a m none ∧ byteReceived (lineLevels b) s = readByte b u := by
  refine ⟨senderReads (lineLevels b) (byteOnLine s), ?_, ?_⟩
  · refine senderReads_viewed _ ?_
    obtain ⟨⟨ha, hm, hc⟩, -⟩ := frameComplete_views s
    exact ⟨ha.trans h.1, hm.trans h.2.1, hc⟩
  · rw [byteReceived_eq (falseStart_lineLevels b), receiverReads, stopGood_lineLevels, dataByte_lineLevels]
    rfl

/-! ### The assembly of a frame, byte by byte (R178 to R181) -/

/-- Bytes received one after another as their sender drives them. -/
def State.receiving (s : State) (bs : List Byte) : State :=
  bs.foldl (fun u b => byteReceived (lineLevels b) u) s

theorem receiving_append (s : State) (bs cs : List Byte) :
    s.receiving (bs ++ cs) = (s.receiving bs).receiving cs := List.foldl_append

section Assembling
variable {s : State} {m : Assembly} {c : Option Completed} {b : Byte}

/-- R178: SYNC begins a frame. -/
theorem receive_sync (h : s.viewed .seeking m c) :
    (s.receiving [syncByte]).viewed .assembling Assembly.empty none := by
  obtain ⟨u, ⟨ha, hm, hc⟩, e⟩ := byteReceived_reads syncByte h
  show (byteReceived (lineLevels syncByte) s).viewed _ _ _
  rw [e, readByte, ha]
  exact ⟨rfl, rfl, hc⟩

/-- R180: a CLASS byte that reads as a code word. -/
theorem receive_class {k : BitVec 4} (h : s.viewed .assembling Assembly.empty c)
    (hb : decodeClass b = some (k, false)) :
    (s.receiving [b]).viewed .assembling { Assembly.empty with cls := some k } none := by
  obtain ⟨u, ⟨ha, hm, hc⟩, e⟩ := byteReceived_reads b h
  show (byteReceived (lineLevels b) s).viewed _ _ _
  have hread : readByte b u = takeClassByte b u := by
    simp only [readByte, ha, assembleByte, takeByte, hm, Assembly.empty, Bool.false_eq_true, if_false,
      Option.isSome_none, and_false]
  rw [e, hread, takeClassByte, hb]
  refine ⟨ha, ?_, hc⟩
  show { u.line.assembly with cls := some k, escape := false } = _
  rw [hm]
  rfl

/-- R179: an escaped byte is taken as the byte it stands for. -/
theorem receive_escaped (h : s.viewed .assembling m c) (hcls : m.cls.isSome) (hesc : m.escape = false)
    (b : Byte) : ∃ (u : State) (e : Bool), u.viewed .assembling { m with escape := e } none ∧
      s.receiving (escaped [b]) = takeFieldByte b u := by
  have hself : { m with escape := false } = m := by rw [← hesc]
  have htake : ∀ (u : State) (e : Bool), u.line.assembly = { m with escape := e } →
      takeByte b u = takeFieldByte b u := fun u e hu => by
    obtain ⟨k, hk⟩ := Option.isSome_iff_exists.1 hcls
    simp only [takeByte, hu, hk]
  obtain ⟨u, ⟨ha, hm, hc⟩, heq⟩ := byteReceived_reads b h
  by_cases hb : b = syncByte
  · have hmark : readByte b u = markEscape u := by
      simp only [readByte, ha, assembleByte, hm, hesc, Bool.false_eq_true, if_false, hb, hcls, and_self, if_true]
    have hview : (markEscape u).viewed .assembling { m with escape := true } none := by
      refine ⟨ha, ?_, hc⟩
      show { u.line.assembly with escape := true } = _
      rw [hm]
    obtain ⟨v, ⟨hva, hvm, hvc⟩, hveq⟩ := byteReceived_reads escapeByte hview
    refine ⟨v, true, ⟨hva, hvm, hvc⟩, ?_⟩
    have hread : readByte escapeByte v = takeByte syncByte v := by
      simp only [readByte, hva, assembleByte, hvm, if_true]
    have hescaped : escaped [b] = [syncByte, escapeByte] := by simp [escaped, hb]
    rw [hescaped]
    show byteReceived (lineLevels escapeByte) (byteReceived (lineLevels syncByte) s) = _
    rw [← hb, heq, hmark, hveq, hread, ← hb, htake v true hvm]
  · refine ⟨u, false, ⟨ha, hm.trans hself.symm, hc⟩, ?_⟩
    have hread : readByte b u = takeByte b u := by
      simp only [readByte, ha, assembleByte, hm, hesc, Bool.false_eq_true, if_false, hb, false_and]
    have hescaped : escaped [b] = [b] := by simp [escaped, hb]
    rw [hescaped]
    show byteReceived (lineLevels b) s = _
    rw [heq, hread, htake u false (hm.trans hself.symm)]

/-- R178: DEST is the first byte taken. -/
theorem receive_dest (h : s.viewed .assembling m c) (hcls : m.cls.isSome) (hesc : m.escape = false)
    (hbytes : m.bytes = []) (b : Byte) : (s.receiving (escaped [b])).viewed .assembling (m.push b) none := by
  obtain ⟨u, e, ⟨ha, hm, hc⟩, heq⟩ := receive_escaped h hcls hesc b
  rw [heq]
  simp only [takeFieldByte, hm, hbytes, List.length_nil]
  refine ⟨ha, ?_, hc⟩
  show u.line.assembly.push b = m.push b
  rw [hm]
  rfl

/-- R178, R181: LEN leads into the hold section. -/
theorem receive_len (h : s.viewed .assembling m c) (hcls : m.cls.isSome) (hesc : m.escape = false)
    (hbytes : m.bytes.length = 1) (hb : b.toNat ≤ 32) :
    (s.receiving (escaped [b])).viewed .assembling { m.push b with inHold := true } none := by
  obtain ⟨u, e, ⟨ha, hm, hc⟩, heq⟩ := receive_escaped h hcls hesc b
  rw [heq]
  simp only [takeFieldByte, hm, hbytes, if_neg (Nat.not_lt.2 hb)]
  refine ⟨ha, ?_, hc⟩
  show { u.line.assembly.push b with inHold := true } = _
  rw [hm]
  rfl

/-- R187: a free hold byte ends the hold section. -/
theorem receive_freeHold (h : s.viewed .assembling m c) (hcls : m.cls.isSome) (hesc : m.escape = false)
    (hbytes : 2 ≤ m.bytes.length) (hhold : m.inHold = true) :
    (s.receiving [freeHoldByte]).viewed .assembling { m with inHold := false } none := by
  obtain ⟨u, e, ⟨ha, hm, hc⟩, heq⟩ := receive_escaped h hcls hesc freeHoldByte
  have hescaped : escaped [freeHoldByte] = [freeHoldByte] := by decide
  rw [hescaped] at heq
  obtain ⟨n, hn⟩ := Nat.exists_eq_add_of_le' hbytes
  rw [heq]
  simp only [takeFieldByte, hm, hn, hhold, if_true]
  refine ⟨ha, ?_, hc⟩
  show { u.line.assembly with inHold := false, escape := false } = _
  rw [hm, ← hesc]

/-- R178: ORIGIN, the body and CHECK are taken in turn; the last of them completes the frame. -/
theorem receive_field (h : s.viewed .assembling m c) (hcls : m.cls.isSome) (hesc : m.escape = false)
    (hbytes : 2 ≤ m.bytes.length) (hhold : m.inHold = false) (b : Byte) :
    (m.bytes.length + 1 ≠ 4 + (byteAt m.bytes 1).toNat →
      (s.receiving (escaped [b])).viewed .assembling (m.push b) none) ∧
    (m.bytes.length + 1 = 4 + (byteAt m.bytes 1).toNat →
      (s.receiving (escaped [b])).viewed .seeking Assembly.empty (some (m.push b).finish)) := by
  obtain ⟨u, e, ⟨ha, hm, hc⟩, heq⟩ := receive_escaped h hcls hesc b
  obtain ⟨n, hn⟩ := Nat.exists_eq_add_of_le' hbytes
  have htake : takeFieldByte b u = finishFrame (u.onAssembly (Assembly.push b)) := by
    simp only [takeFieldByte, hm, hn, hhold, Bool.false_eq_true, if_false]
  have hpush : (u.onAssembly (Assembly.push b)).line.assembly = m.push b := by
    show u.line.assembly.push b = m.push b
    rw [hm]
    rfl
  have hlen : (m.push b).bytes.length = m.bytes.length + 1 := by simp [Assembly.push]
  have hat : byteAt (m.push b).bytes 1 = byteAt m.bytes 1 := by
    simp only [byteAt, Assembly.push, List.getD_append _ _ _ _ (show 1 < m.bytes.length by omega)]
  rw [heq, htake, finishFrame, hpush, hlen, hat]
  refine ⟨fun hne => ?_, fun hlast => ?_⟩
  · rw [if_neg hne]
    exact ⟨ha, hpush, hc⟩
  · rw [if_pos hlast]
    refine ⟨rfl, rfl, ?_⟩
    show some (u.onAssembly (Assembly.push b)).line.assembly.finish = _
    rw [hpush]

/-- R178, R181: the bytes after the hold section complete the frame. -/
theorem receive_tail (bs : List Byte) (h : s.viewed .assembling m c) (hcls : m.cls.isSome)
    (hesc : m.escape = false) (hbytes : 2 ≤ m.bytes.length) (hhold : m.inHold = false) (hne : bs ≠ [])
    (hlen : m.bytes.length + bs.length = 4 + (byteAt m.bytes 1).toNat) :
    (s.receiving (escaped bs)).viewed .seeking Assembly.empty
      (some ({ m with bytes := m.bytes ++ bs } : Assembly).finish) := by
  induction bs generalizing s m c with
  | nil => exact absurd rfl hne
  | cons b bs ih =>
    have hsplit : escaped (b :: bs) = escaped [b] ++ escaped bs := by simp [escaped]
    obtain ⟨hmore, hlast⟩ := receive_field h hcls hesc hbytes hhold b
    have hself : m.push b = { m with bytes := m.bytes ++ [b] } := by rw [Assembly.push, ← hesc]
    rw [hsplit, receiving_append]
    cases bs with
    | nil =>
      have hview := hlast hlen
      rw [hself] at hview
      exact hview
    | cons d ds =>
      have hat : byteAt (m.push b).bytes 1 = byteAt m.bytes 1 := by
        simp only [byteAt, Assembly.push, List.getD_append _ _ _ _ (show 1 < m.bytes.length by omega)]
      have hpush : (m.push b).bytes.length = m.bytes.length + 1 := by simp [Assembly.push]
      have hview := ih (hmore (by simp only [List.length_cons] at hlen; omega)) hcls rfl (by omega) hhold
        (List.cons_ne_nil _ _) (by
          rw [hat, hpush]
          simp only [List.length_cons] at hlen ⊢
          omega)
      rw [hself] at hview
      simp only [List.append_assoc, List.singleton_append] at hview
      exact hview

end Assembling

theorem decodeClass_codeWord (c : MsgClass) :
    decodeClass (codeWord c.number) = some (c.number, false) ∧ codeWord c.number ≠ syncByte ∧
      classOf c.number = some c := by
  cases c <;> decide

/-- R178, R181: the frame that the whole of its bytes holds. -/
theorem finish_frame (k : BitVec 4) (f : Frame) (h : f.body.length ≤ 32) (a : Assembly) (hk : a.cls = some k)
    (hbytes : a.bytes = [f.dest, BitVec.ofNat 8 f.body.length] ++ (f.origin :: f.body ++ [checkByte f])) :
    a.finish = ⟨k, f, checkByte f⟩ := by
  have hlen : (BitVec.ofNat 8 f.body.length).toNat = f.body.length := by
    rw [BitVec.toNat_ofNat]
    exact Nat.mod_eq_of_lt (by omega)
  have hat : ∀ i, byteAt a.bytes (i + 3) = (f.body ++ [checkByte f]).getD i 0 := fun i => by
    rw [hbytes]
    rfl
  have hlen1 : byteAt a.bytes 1 = BitVec.ofNat 8 f.body.length := by rw [hbytes]; rfl
  rw [Assembly.finish, hk, hlen1, hlen, Nat.add_comm 3, hat, hbytes]
  simp [byteAt]

/-- R178 to R181: a frame sent byte by byte is assembled whole. -/
theorem receiving_wireBytes (c : MsgClass) (f : Frame) (s : State) (hs : s.line.assembler = .seeking)
    (hf : f.body.length ≤ 32) : (s.receiving (wireBytes c f)).viewed .seeking Assembly.empty
      (some ⟨c.number, f, checkByte f⟩) := by
  obtain ⟨hdecode, hword, -⟩ := decodeClass_codeWord c
  have hlen : (BitVec.ofNat 8 f.body.length).toNat = f.body.length := by
    rw [BitVec.toNat_ofNat]
    exact Nat.mod_eq_of_lt (by omega)
  have hclass : escaped [codeWord c.number] = [codeWord c.number] := by simp [escaped, hword]
  have hwire : wireBytes c f = [syncByte] ++ (escaped [codeWord c.number] ++ (escaped [f.dest] ++
      (escaped [BitVec.ofNat 8 f.body.length] ++ ([freeHoldByte] ++
        escaped (f.origin :: f.body ++ [checkByte f]))))) := by
    simp [wireBytes, headBytes, tailBytes, escaped]
  have h0 : s.viewed .seeking s.line.assembly s.line.completed := ⟨hs, rfl, rfl⟩
  have h1 := receive_class (receive_sync h0) hdecode
  have h2 := receive_dest h1 rfl rfl rfl f.dest
  have h3 := receive_len (b := BitVec.ofNat 8 f.body.length) h2 rfl rfl rfl (by omega)
  have h4 := receive_freeHold h3 rfl rfl (le_refl 2) rfl
  have h5 := receive_tail (f.origin :: f.body ++ [checkByte f]) h4 rfl rfl (le_refl 2) rfl (by simp) (by
    show 2 + (f.origin :: f.body ++ [checkByte f]).length = 4 + (BitVec.ofNat 8 f.body.length).toNat
    rw [hlen]
    simp
    omega)
  rw [finish_frame c.number f hf _ rfl rfl] at h5
  rw [hwire, hclass]
  simp only [receiving_append]
  exact h5

end Sys2Proof.Machine
end

section
/-!
PROOFS. The sender of a frame (R178, R185, R187, R188): the bytes it drives, one after another.
-/
namespace Sys2Proof.Machine

/-! ### The sender's reading of its own byte (R185, R187) -/

theorem asmOnly.sending {s t : State} (h : asmOnly s t) : t.line.sending = s.line.sending := by
  rw [h]

/-- R176: the byte on the line at its sender. -/
theorem byteReceived_sending (b : Byte) (s : State) : ∃ u : State, u.line.sending = s.line.sending ∧
    (byteReceived (lineLevels b) s).line.sending = (senderReads (lineLevels b) u).line.sending := by
  refine ⟨byteOnLine s, (frameComplete_views s).2, ?_⟩
  rw [byteReceived_eq (falseStart_lineLevels b), (receiverReads_asmOnly _ _).sending]

/-- R185, R187: the frame on the line after the byte that its sender drives: a free hold byte ends the hold
section, and any other has gone out. -/
def Sending.afterByte (x : Sending) : Sending :=
  if x.inHold then { x with holdOver := true } else { x with sent := x.sent + 1 }

theorem readsFree_freeHold : readsFree (lineLevels freeHoldByte) = true := by decide

theorem nextByte_of_inHold {x : Sending} {b : Byte} (hx : x.inHold = true) (hb : x.nextByte = some b) :
    b = freeHoldByte := by
  obtain ⟨hle, hover⟩ : (headBytes x.cls x.frame).length ≤ x.sent ∧ x.holdOver = false := by
    simpa [Sending.inHold] using hx
  rw [Sending.nextByte, if_neg (Nat.not_lt.2 hle), hover, if_neg Bool.false_ne_true] at hb
  split_ifs at hb
  exact (Option.some.inj hb).symm

theorem senderReads_own {s : State} {x : Sending} {b : Byte} (hs : s.line.sending = some x)
    (hb : x.nextByte = some b) : (senderReads (lineLevels b) s).line.sending = some x.afterByte := by
  have hread : senderReads (lineLevels b) s = readBack x b (lineLevels b) s := by
    simp only [senderReads, hs, hb]
  rw [hread, readBack, Sending.afterByte]
  cases hx : x.inHold
  · rw [if_neg Bool.false_ne_true, if_neg Bool.false_ne_true, overridden_lineLevels,
      if_neg Bool.false_ne_true]
    show s.line.sending.map _ = _
    rw [hs]
    rfl
  · rw [if_pos rfl, if_pos rfl, readHoldBack, nextByte_of_inHold hx hb, readsFree_freeHold, if_pos rfl]
    show s.line.sending.map _ = _
    rw [hs]
    rfl

theorem byteReceived_own {s : State} {x : Sending} {b : Byte} (hs : s.line.sending = some x)
    (hb : x.nextByte = some b) : (byteReceived (lineLevels b) s).line.sending = some x.afterByte := by
  obtain ⟨u, hu, e⟩ := byteReceived_sending b s
  rw [e]
  exact senderReads_own (hu.trans hs) hb

/-! ### The bytes of a frame in turn (R178, R187, R188) -/

/-- The frame on the line when k of its bytes have gone out, one of them a free hold byte. -/
def Sending.after (x : Sending) (k : Nat) : Sending :=
  if k ≤ (headBytes x.cls x.frame).length then { x with sent := k }
  else { x with sent := k - 1, holdOver := true }

section Bytes
variable {x : Sending} (h0 : x.sent = 0) (hheld : x.held = 0) (hover : x.holdOver = false)
include h0 hheld hover

omit hheld hover in
theorem after_zero : x.after 0 = x := by
  rw [Sending.after, if_pos (Nat.zero_le _), ← h0]

omit h0 in
/-- R178, R187: the byte driven after k bytes is the next of the frame as sent. -/
theorem nextByte_after (k : Nat) {b : Byte} (hb : (wireBytes x.cls x.frame)[k]? = some b) :
    (x.after k).nextByte = some b ∧ (x.after k).afterByte = x.after (k + 1) := by
  rw [wireBytes] at hb
  rcases Nat.lt_trichotomy k (headBytes x.cls x.frame).length with hlt | heq | hgt
  · have hafter : x.after k = { x with sent := k } := if_pos hlt.le
    have hnext : x.after (k + 1) = { x with sent := k + 1 } := if_pos hlt
    have hhold : Sending.inHold { x with sent := k } = false := by
      simp [Sending.inHold, Nat.not_le.2 hlt]
    rw [hafter, hnext, Sending.nextByte, if_pos hlt, Sending.afterByte, hhold, if_neg Bool.false_ne_true]
    rw [List.getElem?_append_left hlt] at hb
    exact ⟨hb, rfl⟩
  · have hafter : x.after k = { x with sent := k } := if_pos heq.le
    have hnext : x.after (k + 1) = { x with sent := k, holdOver := true } := if_neg (by omega)
    have hhold : Sending.inHold { x with sent := k } = true := by simp [Sending.inHold, heq, hover]
    have hfree : b = freeHoldByte := by
      rw [heq, List.getElem?_append_right le_rfl, Nat.sub_self] at hb
      exact (Option.some.inj hb).symm
    rw [hafter, hnext, Sending.afterByte, hhold, if_pos rfl]
    refine ⟨?_, rfl⟩
    rw [Sending.nextByte, if_neg (by simp [heq]), hover, if_neg Bool.false_ne_true, hheld, hfree]
    exact if_pos (by decide)
  · have hafter : x.after k = { x with sent := k - 1, holdOver := true } := if_neg (Nat.not_le.2 hgt)
    have hnext : x.after (k + 1) = { x with sent := k, holdOver := true } := if_neg (by omega)
    have hhold : Sending.inHold { x with sent := k - 1, holdOver := true } = false := by simp [Sending.inHold]
    rw [hafter, hnext, Sending.nextByte, if_neg (by simp only; omega), if_pos rfl, Sending.afterByte, hhold,
      if_neg Bool.false_ne_true]
    obtain ⟨j, rfl⟩ := Nat.exists_eq_add_of_lt hgt
    rw [List.getElem?_append_right hgt.le, show (headBytes x.cls x.frame).length + j + 1 -
      (headBytes x.cls x.frame).length = j + 1 by omega, List.getElem?_cons_succ] at hb
    refine ⟨?_, rfl⟩
    simp only
    rw [show (headBytes x.cls x.frame).length + j + 1 - 1 - (headBytes x.cls x.frame).length = j by omega]
    exact hb

/-- R178, R187: the frame on the line after k of its bytes. -/
theorem sending_after {s : State} (hs : s.line.sending = some x) (k : Nat)
    (hk : k ≤ (wireBytes x.cls x.frame).length) :
    (s.receiving ((wireBytes x.cls x.frame).take k)).line.sending = some (x.after k) := by
  induction k with
  | zero => rw [after_zero h0]; exact hs
  | succ k ih =>
    obtain ⟨b, hb⟩ : ∃ b, (wireBytes x.cls x.frame)[k]? = some b := ⟨_, List.getElem?_eq_getElem hk⟩
    obtain ⟨hnext, hafter⟩ := nextByte_after hheld hover k hb
    rw [List.take_add_one, hb, Option.toList_some, receiving_append, ← hafter]
    exact byteReceived_own (ih (by omega)) hnext

omit h0 hheld hover in
/-- R188: after its last byte a frame has been sent whole. -/
theorem allSent_after : (x.after (wireBytes x.cls x.frame).length).allSent = true := by
  have hlen : (wireBytes x.cls x.frame).length =
      (headBytes x.cls x.frame).length + ((tailBytes x.frame).length + 1) := by
    rw [wireBytes, List.length_append, List.length_cons]
  have hafter : x.after (wireBytes x.cls x.frame).length =
      { x with sent := (wireBytes x.cls x.frame).length - 1, holdOver := true } := if_neg (by omega)
  rw [hafter, Sending.allSent, Sending.nextByte, if_neg (by simp only; omega), if_pos rfl]
  simp only [Bool.true_and, Option.isNone_iff_eq_none, List.getElem?_eq_none_iff]
  omega

end Bytes

theorem after_keeps (x : Sending) (k : Nat) :
    (x.after k).queue = x.queue ∧ (x.after k).cls = x.cls ∧ (x.after k).frame = x.frame := by
  unfold Sending.after
  split_ifs <;> exact ⟨rfl, rfl, rfl⟩

/-- Settles O55: the assembler takes the bytes in turn, and the sender drives them. -/
theorem sentFrameIsAssembled : Obligations.SentFrameIsAssembled := by
  refine ⟨fun c f s hs hf => ?_, fun x s hs h0 hheld hover => ⟨fun k b hb => ?_, ?_, fun hr b hb => ?_⟩⟩
  · obtain ⟨ha, -, hc⟩ := receiving_wireBytes c f s hs hf
    exact ⟨hc, ha, (decodeClass_codeWord c).2.2⟩
  · have hk : k < (wireBytes x.cls x.frame).length := (List.getElem?_eq_some_iff.1 hb).1
    show (s.receiving ((wireBytes x.cls x.frame).take k)).line.sending.bind Sending.nextByte = some b
    rw [sending_after h0 hheld hover hs k hk.le]
    exact (nextByte_after hheld hover k hb).1
  · have hall := sending_after h0 hheld hover hs _ le_rfl
    rw [List.take_length] at hall
    obtain ⟨hq, hc, hf⟩ := after_keeps x (wireBytes x.cls x.frame).length
    exact ⟨_, hall, hq, hc, hf, allSent_after⟩
  · rw [drivenLevels, hr, if_neg Bool.false_ne_true, hb]

end Sys2Proof.Machine
end

section
/-!
PROOFS. One byte and one quiet interval (R176 to R183, R185, R187, R188, R195).
-/
namespace Sys2Proof.Machine

/-! ### The commands of the line -/

section Commands
variable {s : State} {levels : LineLevels}

theorem exec_levels (hr : s.resetAsserted = false) :
    exec (levelsCommand levels) s = .next (byteReceived levels s) := by
  refine exec_next_of hr ?_
  show byteReceived (levels.extractLsb' 9 1 ++ levels.setWidth 9) s = _
  rw [levelsCommand_levels]

theorem exec_falseStart (h : levels.getLsbD 0 = true) : exec (levelsCommand levels) s = .next s := by
  cases hr : s.resetAsserted
  · rw [exec_levels hr, byteReceived_falseStart h]
  · show inService s (byteReceived _) = _
    rw [inService, hr]
    rfl

/-- R177, R186: with no frame awaiting disposal a byte ends the quiet and a byte held. -/
theorem byteOnLine_of_none (hc : s.line.completed = none) : byteOnLine s = s.afterByte := by
  rw [byteOnLine, frameComplete_of_none hc]
  rfl

variable (hr : s.resetAsserted = false) (hc : s.line.completed = none) (hs : s.line.sending = none)
include hr hc hs

theorem exec_levels_idle (h0 : levels.getLsbD 0 = false) :
    exec (levelsCommand levels) s = .next (receiverReads levels s.afterByte) := by
  have hsender : senderReads levels s.afterByte = s.afterByte := by
    simp only [senderReads, State.afterByte, hs]
  rw [exec_levels hr, byteReceived_eq h0, byteOnLine_of_none hc, hsender]

/-- R176: a byte as it is driven, read by a station that is not sending. -/
theorem exec_byte_idle (b : Byte) : exec (byteCommand b) s = .next (readByte b s.afterByte) := by
  rw [byteCommand, exec_levels_idle hr hc hs (falseStart_lineLevels b), receiverReads, stopGood_lineLevels,
    dataByte_lineLevels, if_pos rfl]

/-- R176: a dominant stop bit. -/
theorem exec_framingError (h0 : levels.getLsbD 0 = false) (h9 : levels.getLsbD 9 = false) :
    exec (levelsCommand levels) s = .next (framingError s.afterByte) := by
  rw [exec_levels_idle hr hc hs h0, receiverReads, stopGood, h9, if_neg Bool.false_ne_true]

end Commands

/-! ### A byte at the assembler (R178 to R181) -/

section Assembler
variable {s : State} {b : Byte}

/-- R179: a frame broken by a byte. -/
theorem breakFrame_afterByte (next : AsmState) (s : State) :
    breakFrame next s.afterByte = s.brokenCounted.turned next Assembly.empty := by
  have hown : ownOriginRead s.afterByte = true ↔
      3 ≤ s.line.assembly.bytes.length ∧ s.isOwnNumber (byteAt s.line.assembly.bytes 2) = true := by
    rw [ownOriginRead, Bool.and_eq_true, decide_eq_true_eq]
    exact Iff.rfl
  rw [breakFrame, State.brokenCounted]
  simp only [hown]
  split_ifs <;> rfl

/-- R180: the CLASS byte, by what it reads as. -/
theorem takeClassByte_of_none (u : State) (h : decodeClass b = none) :
    takeClassByte b u = breakFrame .skipping u := by
  simp only [takeClassByte, h]

theorem takeClassByte_of_some (u : State) {k : BitVec 4} {corrected : Bool}
    (h : decodeClass b = some (k, corrected)) : takeClassByte b u =
      (if corrected then u.count .classCorrections else u).onAssembly
        (fun a => { a with cls := some k, escape := false }) := by
  simp only [takeClassByte, h]

/-- A frame in assembly in which no escape is pending. -/
theorem assembled_of_unescaped {a : Assembly} (h : a.escape = false) (k : Option (BitVec 4)) (hold held : Bool) :
    ({ a with cls := k, escape := false, inHold := hold, heldRead := held } : Assembly) =
      { a with cls := k, inHold := hold, heldRead := held } := by
  rw [← h]

section Assembling
variable (ha : s.line.assembler = .assembling)
include ha

theorem readByte_of_assembling : readByte b s.afterByte = assembleByte b s.afterByte := by
  have : s.afterByte.line.assembler = .assembling := ha
  simp only [readByte, this]

theorem readByte_of_class (hcls : s.line.assembly.cls = none) (hesc : s.line.assembly.escape = false) :
    readByte b s.afterByte = takeClassByte b s.afterByte := by
  have hc' : s.afterByte.line.assembly.cls = none := hcls
  have he' : s.afterByte.line.assembly.escape = false := hesc
  simp only [readByte_of_assembling ha, assembleByte, takeByte, hc', he', Bool.false_eq_true, if_false,
    Option.isSome_none, and_false]

theorem readByte_of_sync (hcls : s.line.assembly.cls.isSome) (hesc : s.line.assembly.escape = false) :
    readByte syncByte s.afterByte = markEscape s.afterByte := by
  have hc' : s.afterByte.line.assembly.cls.isSome = true := hcls
  have he' : s.afterByte.line.assembly.escape = false := hesc
  simp only [readByte_of_assembling ha, assembleByte, hc', he', Bool.false_eq_true, if_false, and_self, if_true]

theorem readByte_of_field (hcls : s.line.assembly.cls.isSome) (hesc : s.line.assembly.escape = false)
    (hb : b ≠ syncByte) : readByte b s.afterByte = takeFieldByte b s.afterByte := by
  obtain ⟨k, hk⟩ := Option.isSome_iff_exists.1 hcls
  have hc' : s.afterByte.line.assembly.cls = some k := hk
  have he' : s.afterByte.line.assembly.escape = false := hesc
  simp only [readByte_of_assembling ha, assembleByte, takeByte, hc', he', Bool.false_eq_true, if_false, hb,
    false_and]

theorem readByte_of_lostSync (hesc : s.line.assembly.escape = true) (hb : b ≠ escapeByte) :
    readByte b s.afterByte = byteAfterSync b (s.brokenCounted.turned .seeking Assembly.empty) := by
  have he' : s.afterByte.line.assembly.escape = true := hesc
  simp only [readByte_of_assembling ha, assembleByte, he', if_true, hb, if_false, breakFrame_afterByte]

end Assembling

/-- R179: the byte after a SYNC found by an escape. -/
theorem byteAfterSync_of_class (u : State) {k : BitVec 4} (hb : b ≠ syncByte)
    (h : decodeClass b = some (k, false)) :
    byteAfterSync b u = (beginFrame u).onAssembly (fun a => { a with cls := some k, escape := false }) := by
  rw [byteAfterSync, if_neg hb]
  show takeClassByte b (beginFrame u) = _
  rw [takeClassByte_of_some _ h, if_neg Bool.false_ne_true]

section Skipping
variable (ha : s.line.assembler = .skipping)
include ha

theorem readByte_of_skipping : readByte b s.afterByte = skipByte b s.afterByte := by
  have : s.afterByte.line.assembler = .skipping := ha
  simp only [readByte, this]

theorem skip_of_plain (hesc : s.line.assembly.escape = false) :
    readByte b s.afterByte = if b = syncByte then markEscape s.afterByte else s.afterByte := by
  have he' : s.afterByte.line.assembly.escape = false := hesc
  simp only [readByte_of_skipping ha, skipByte, he', Bool.false_eq_true, if_false]

theorem skip_of_escape (hesc : s.line.assembly.escape = true) : readByte b s.afterByte =
    if b = escapeByte then s.afterByte.onAssembly (fun a => { a with escape := false })
    else byteAfterSync b s.afterByte := by
  have he' : s.afterByte.line.assembly.escape = true := hesc
  simp only [readByte_of_skipping ha, skipByte, he', if_true]

end Skipping

end Assembler

/-! ### The clauses of a byte at an idle sender -/

section Idle
variable {s : State} (hr : s.resetAsserted = false) (hc : s.line.completed = none) (hs : s.line.sending = none)
include hr hc hs

theorem byte_ignored {b : Byte} (h : s.line.assembler = .waitingForQuiet ∨
    (s.line.assembler = .seeking ∧ b ≠ 0xF0)) : exec (byteCommand b) s = .next s.afterByte := by
  rw [exec_byte_idle hr hc hs]
  rcases h with h | ⟨h, hb⟩
  · have : s.afterByte.line.assembler = .waitingForQuiet := h
    simp only [readByte, this]
  · have ha : s.afterByte.line.assembler = .seeking := h
    simp only [readByte, ha]
    rw [if_neg (show ¬ b = syncByte from hb)]

theorem byte_syncs (h : s.line.assembler = .seeking) :
    exec (byteCommand 0xF0) s = .next (s.turned .assembling Assembly.empty) := by
  have ha : s.afterByte.line.assembler = .seeking := h
  rw [exec_byte_idle hr hc hs]
  simp only [readByte, ha]
  rfl

theorem byte_class {b : Byte} (ha : s.line.assembler = .assembling) (hcls : s.line.assembly.cls = none)
    (hesc : s.line.assembly.escape = false) :
    (decodeClass b = none → exec (byteCommand b) s =
      .next (s.brokenCounted.turned .skipping Assembly.empty)) ∧
    (∀ cls, decodeClass b = some (cls, false) → exec (byteCommand b) s =
      .next (s.assembled { s.line.assembly with cls := some cls })) ∧
    (∀ cls, decodeClass b = some (cls, true) → exec (byteCommand b) s =
      .next ({ s with tallies := { s.tallies with
        classCorrections := saturate s.tallies.classCorrections } }.assembled
          { s.line.assembly with cls := some cls })) := by
  rw [exec_byte_idle hr hc hs, readByte_of_class ha hcls hesc]
  refine ⟨fun h => ?_, fun k h => ?_, fun k h => ?_⟩
  · rw [takeClassByte_of_none _ h, breakFrame_afterByte]
  · rw [takeClassByte_of_some _ h, ← assembled_of_unescaped hesc]
    rfl
  · rw [takeClassByte_of_some _ h, ← assembled_of_unescaped hesc]
    rfl

theorem byte_field {b : Byte} (ha : s.line.assembler = .assembling) (hcls : s.line.assembly.cls.isSome)
    (hesc : s.line.assembly.escape = false) :
    (s.line.assembly.bytes.length = 1 → b ≠ 0xF0 →
      (32 < b.toNat → exec (byteCommand b) s =
        .next (s.brokenCounted.turned .skipping Assembly.empty)) ∧
      (b.toNat ≤ 32 → exec (byteCommand b) s = .next (s.assembled { s.line.assembly with
        bytes := s.line.assembly.bytes ++ [b], inHold := true }))) ∧
    (2 ≤ s.line.assembly.bytes.length → s.line.assembly.inHold = true →
      (b ≠ 0xFF → b ≠ 0xF0 → exec (byteCommand b) s =
        .next (s.assembled { s.line.assembly with heldRead := true })) ∧
      exec (byteCommand 0xFF) s = .next (s.assembled { s.line.assembly with inHold := false })) ∧
    exec (byteCommand 0xF0) s = .next (s.assembled { s.line.assembly with escape := true }) := by
  have hfield : ∀ d : Byte, d ≠ 0xF0 → exec (byteCommand d) s = .next (takeFieldByte d s.afterByte) :=
    fun d hd => by rw [exec_byte_idle hr hc hs, readByte_of_field ha hcls hesc hd]
  refine ⟨fun hlen hb => ?_, fun hlen hhold => ?_, ?_⟩
  · have hlen' : s.afterByte.line.assembly.bytes.length = 1 := hlen
    rw [hfield b hb]
    simp only [takeFieldByte, hlen']
    refine ⟨fun h => ?_, fun h => ?_⟩
    · rw [if_pos h, breakFrame_afterByte]
    · rw [if_neg (Nat.not_lt.2 h), hesc]
      rfl
  · obtain ⟨n, hn⟩ := Nat.exists_eq_add_of_le' hlen
    have hlen' : s.afterByte.line.assembly.bytes.length = n + 2 := hn
    have hhold' : s.afterByte.line.assembly.inHold = true := hhold
    have htake : ∀ d : Byte, takeFieldByte d s.afterByte = if d = freeHoldByte then
        s.afterByte.onAssembly (fun a => { a with inHold := false, escape := false })
        else s.afterByte.onAssembly (fun a => { a with escape := false, heldRead := true }) := fun d => by
      simp only [takeFieldByte, hlen', hhold', if_true]
    refine ⟨fun hb1 hb2 => ?_, ?_⟩
    · rw [hfield b hb2, htake, if_neg (show ¬ b = freeHoldByte from hb1), ← assembled_of_unescaped hesc]
      rfl
    · rw [hfield 0xFF (by decide), htake, if_pos (show (0xFF : Byte) = freeHoldByte from rfl),
        ← assembled_of_unescaped hesc]
      rfl
  · rw [exec_byte_idle hr hc hs]
    exact congrArg _ (readByte_of_sync ha hcls hesc)

theorem byte_lostSync {b : Byte} (ha : s.line.assembler = .assembling)
    (hesc : s.line.assembly.escape = true) :
    (∀ cls, b ≠ 0x0F → b ≠ 0xF0 → decodeClass b = some (cls, false) → exec (byteCommand b) s =
      .next (s.brokenCounted.turned .assembling { Assembly.empty with cls := some cls })) ∧
    exec (byteCommand 0xF0) s =
      .next (s.brokenCounted.turned .assembling { Assembly.empty with escape := true }) := by
  refine ⟨fun k h1 h2 h => ?_, ?_⟩
  · rw [exec_byte_idle hr hc hs, readByte_of_lostSync ha hesc h1, byteAfterSync_of_class _ h2 h]
    rfl
  · rw [exec_byte_idle hr hc hs, readByte_of_lostSync ha hesc (by decide)]
    rfl

theorem byte_skipped {b : Byte} (ha : s.line.assembler = .skipping) (hesc : s.line.assembly.escape = false) :
    (b ≠ 0xF0 → exec (byteCommand b) s = .next s.afterByte) ∧
    exec (byteCommand 0xF0) s = .next (s.assembled { s.line.assembly with escape := true }) := by
  refine ⟨fun hb => ?_, ?_⟩
  · rw [exec_byte_idle hr hc hs, skip_of_plain ha hesc]
    exact congrArg _ (if_neg hb)
  · rw [exec_byte_idle hr hc hs, skip_of_plain ha hesc]
    rfl

theorem byte_skipEscape {b : Byte} (ha : s.line.assembler = .skipping)
    (hesc : s.line.assembly.escape = true) :
    exec (byteCommand 0x0F) s = .next (s.assembled { s.line.assembly with escape := false }) ∧
    (∀ cls, b ≠ 0x0F → b ≠ 0xF0 → decodeClass b = some (cls, false) → exec (byteCommand b) s =
      .next (s.turned .assembling { Assembly.empty with cls := some cls })) ∧
    exec (byteCommand 0xF0) s =
      .next (s.turned .assembling { Assembly.empty with escape := true }) := by
  refine ⟨?_, fun k h1 h2 h => ?_, ?_⟩
  · rw [exec_byte_idle hr hc hs, skip_of_escape ha hesc]
    rfl
  · rw [exec_byte_idle hr hc hs, skip_of_escape ha hesc, byteAfterSync_of_class _ h2 h]
    exact congrArg _ (if_neg h1)
  · rw [exec_byte_idle hr hc hs, skip_of_escape ha hesc]
    rfl

end Idle

end Sys2Proof.Machine
end

section
/-!
PROOFS. The quiet interval (R177, R183, R195) and the byte at a station whose frame is on the line (R185,
R187, R188).
-/
namespace Sys2Proof.Machine

/-! ### A quiet interval (R177, R183) -/

section Quiet
variable {s : State}

/-- R183: the line interface after a silence, the assembler SEEKING. -/
def State.silenced (s : State) : Line := { s.line with
  quiet := min 4 (s.line.quiet + 2), holding := false, holdDrive := false, assembler := .seeking,
  assembly := Assembly.empty }

theorem lineQuiet_of_sending {x : Sending} (hs : s.line.sending = some x) : lineQuiet s = s :=
  if_pos (by rw [hs]; rfl)

theorem lineQuiet_of_idle (hc : s.line.completed = none) (hs : s.line.sending = none) :
    lineQuiet s = dropForSilence (s.onLine fun l => { l with quiet := min 4 (l.quiet + 2) }) := by
  rw [lineQuiet, hs, if_neg (by simp), frameComplete_of_none hc]

/-- R183: a silence that breaks no frame, or falls inside the hold section. -/
theorem lineQuiet_of_uncounted (hc : s.line.completed = none) (hs : s.line.sending = none)
    (h : s.line.assembler ≠ .assembling ∨
      (s.line.assembly.inHold = true ∧ s.line.assembly.heldRead = true)) :
    lineQuiet s = s.withLine s.silenced := by
  rw [lineQuiet_of_idle hc hs]
  refine if_neg ?_
  rintro ⟨ha, hsilent⟩
  rcases h with h | ⟨h1, h2⟩
  · exact h ha
  · have hin : s.line.assembly.silentInHold = true := by rw [Assembly.silentInHold, h1, h2]; rfl
    exact Bool.eq_false_iff.1 hsilent hin

/-- R183: a silence that breaks a frame. -/
theorem lineQuiet_of_counted (hc : s.line.completed = none) (hs : s.line.sending = none)
    (ha : s.line.assembler = .assembling)
    (h : s.line.assembly.inHold = false ∨ s.line.assembly.heldRead = false) :
    lineQuiet s = s.brokenCounted.withLine s.silenced := by
  have hsilent : s.line.assembly.silentInHold = false := by
    rw [Assembly.silentInHold]
    rcases h with h | h <;> simp [h]
  have hown : ownOriginRead s = true ↔
      3 ≤ s.line.assembly.bytes.length ∧ s.isOwnNumber (byteAt s.line.assembly.bytes 2) = true := by
    rw [ownOriginRead, Bool.and_eq_true, decide_eq_true_eq]
  rw [lineQuiet_of_idle hc hs]
  refine (if_pos ⟨ha, hsilent⟩).trans ?_
  have hsame : ownOriginRead (s.onLine fun l => { l with quiet := min 4 (l.quiet + 2) }) = ownOriginRead s := rfl
  rw [breakFrame, hsame, State.brokenCounted]
  simp only [hown]
  split_ifs <;> rfl

end Quiet

/-! ### A byte at its sender (R185, R187) -/

section Sender
variable {s : State} {x : Sending} {b : Byte} {levels : LineLevels}

/-- R185: a bit of byte b, sent recessive, is read dominant. -/
theorem overridden_iff : overridden b levels = true ↔
    ∃ i, i < 10 ∧ (lineLevels b).getLsbD i = true ∧ levels.getLsbD i = false := by
  have hbit : ∀ i, i < 10 → ((lineLevels b &&& ~~~ levels).getLsbD i = true ↔
      (lineLevels b).getLsbD i = true ∧ levels.getLsbD i = false) := fun i hi => by
    rw [BitVec.getLsbD_and, BitVec.getLsbD_not, Bool.and_eq_true]
    simp [hi]
  rw [overridden, bne_iff_ne]
  constructor
  · intro hne
    by_contra hnone
    refine hne (BitVec.eq_of_getLsbD_eq fun i hi => ?_)
    refine Eq.trans (Bool.eq_false_iff.2 ?_) BitVec.getLsbD_zero.symm
    exact fun h => hnone ⟨i, hi, (hbit i hi).1 h⟩
  · rintro ⟨i, hi, h⟩ hzero
    have := (hbit i hi).2 h
    rw [hzero] at this
    exact absurd (this.symm.trans BitVec.getLsbD_zero) (by decide)

/-- R176: a byte at a station with no frame awaiting disposal: the sender reads, then the receiver. -/
theorem byteReceived_of_none (hc : s.line.completed = none) (h0 : levels.getLsbD 0 = false) :
    asmOnly (senderReads levels s.afterByte) (byteReceived levels s) := by
  rw [byteReceived_eq h0, byteOnLine_of_none hc]
  exact receiverReads_asmOnly _ _

theorem senderReads_of_next (hs : s.line.sending = some x) (hb : x.nextByte = some b) :
    senderReads levels s.afterByte = readBack x b levels s.afterByte := by
  have hs' : s.afterByte.line.sending = some x := hs
  simp only [senderReads, hs', hb]

/-- R185: a byte that reads as sent counts as sent. -/
theorem senderReads_of_kept (hs : s.line.sending = some x) (hx : x.inHold = false)
    (hb : x.nextByte = some b)
    (hkept : ∀ i, i < 10 → (lineLevels b).getLsbD i = true → levels.getLsbD i = true) :
    senderReads levels s.afterByte = s.afterByte.onSending (fun y => { y with sent := y.sent + 1 }) := by
  have hno : overridden b levels = false := by
    refine Bool.eq_false_iff.2 fun h => ?_
    obtain ⟨i, hi, hsent, hread⟩ := overridden_iff.1 h
    rw [hkept i hi hsent] at hread
    cases hread
  rw [senderReads_of_next hs hb, readBack, hx, if_neg Bool.false_ne_true, hno, if_neg Bool.false_ne_true]

/-- R185: a bit sent recessive and read dominant is a loss. -/
theorem senderReads_of_lost (hs : s.line.sending = some x) (hx : x.inHold = false)
    (hb : x.nextByte = some b)
    (hlost : ∃ i, i < 10 ∧ (lineLevels b).getLsbD i = true ∧ levels.getLsbD i = false) :
    senderReads levels s.afterByte = loseAttempt x.queue s.afterByte := by
  rw [senderReads_of_next hs hb, readBack, hx, if_neg Bool.false_ne_true, overridden_iff.2 hlost, if_pos rfl]

theorem nextByte_of_hold (hx : x.inHold = true) (hheld : x.held < 24) : x.nextByte = some freeHoldByte := by
  obtain ⟨hle, hover⟩ : (headBytes x.cls x.frame).length ≤ x.sent ∧ x.holdOver = false := by
    simpa [Sending.inHold] using hx
  rw [Sending.nextByte, if_neg (Nat.not_lt.2 hle), hover, if_neg Bool.false_ne_true]
  exact if_pos hheld

/-- R187: a hold byte ends the hold section, or is held. -/
theorem senderReads_of_hold (hs : s.line.sending = some x) (hx : x.inHold = true) (hheld : x.held < 24) :
    (senderReads levels s.afterByte).line.sending =
      some (if levels.extractLsb' 1 8 = 0xFF ∧ levels.getLsbD 9 = true then { x with holdOver := true }
        else { x with held := x.held + 1 }) := by
  have hfree : readsFree levels = true ↔ levels.extractLsb' 1 8 = 0xFF ∧ levels.getLsbD 9 = true := by
    rw [readsFree, Bool.and_eq_true, beq_iff_eq]
    exact Iff.rfl
  have hmap : ∀ f : Sending → Sending, (s.afterByte.onSending f).line.sending = some (f x) := fun f => by
    show s.line.sending.map f = _
    rw [hs]
    rfl
  rw [senderReads_of_next hs (nextByte_of_hold hx hheld), readBack, hx, if_pos rfl, readHoldBack]
  by_cases h : readsFree levels = true
  · rw [if_pos h, if_pos (hfree.1 h), hmap]
  · rw [if_neg h, if_neg fun hcon => h (hfree.2 hcon), hmap]

theorem asmOnly.queues {s t : State} (h : asmOnly s t) : t.line.tapeQueue = s.line.tapeQueue ∧
    t.line.generalQueue = s.line.generalQueue ∧ t.tallies.arbitrationLosses = s.tallies.arbitrationLosses ∧
    t.tallies.framesAbandoned = s.tallies.framesAbandoned := by
  rw [h]
  exact ⟨rfl, rfl, rfl, rfl⟩

theorem asmOnly.queue {s t : State} (h : asmOnly s t) (q : QueueId) : t.line.queue q = s.line.queue q := by
  obtain ⟨htape, hgeneral, -⟩ := h.queues
  cases q
  · exact htape
  · exact hgeneral

theorem queue_onQueue (q : QueueId) (g : List TxFrame → List TxFrame) (s : State) :
    (s.onQueue q g).line.queue q = g (s.line.queue q) := by cases q <;> rfl

/-- R188: a lost attempt of the frame at the head of its queue. -/
theorem loseAttempt_head {f : TxFrame} {fs : List TxFrame} {q : QueueId} (hq : s.line.queue q = f :: fs) :
    (loseAttempt q s).line.sending = none ∧
    (loseAttempt q s).tallies.arbitrationLosses = saturate s.tallies.arbitrationLosses ∧
    (f.retries < 15 → (loseAttempt q s).line.queue q = { f with retries := f.retries + 1 } :: fs ∧
      (loseAttempt q s).tallies.framesAbandoned = s.tallies.framesAbandoned) ∧
    (15 ≤ f.retries → (loseAttempt q s).line.queue q = fs ∧
      (loseAttempt q s).tallies.framesAbandoned = saturate s.tallies.framesAbandoned) := by
  have hqc : (s.count .arbitrationLosses).line.queue q = f :: fs := hq
  by_cases hfew : f.retries < 15
  · have e : loseAttempt q s = _ := failAttempt_of_few hqc hfew
    rw [e]
    refine ⟨?_, ?_, fun _ => ⟨queue_onQueue _ _ _, ?_⟩, fun h => absurd hfew (Nat.not_lt.2 h)⟩ <;>
      cases q <;> rfl
  · have e : loseAttempt q s = _ := failAttempt_of_last hqc (Nat.not_lt.1 hfew)
    rw [e]
    refine ⟨?_, ?_, fun h => absurd h hfew, fun _ => ⟨queue_onQueue _ _ _, ?_⟩⟩ <;>
      cases q <;> rfl

end Sender

/-- Settles O56: by the state of the assembler, and by the section of the frame on the line. -/
theorem bytesAndQuiet : Obligations.BytesAndQuiet := by
  refine ⟨fun levels s h => exec_falseStart h, fun b => ⟨falseStart_lineLevels b, stopGood_lineLevels b, ?_⟩,
    fun levels s hr hc hs h0 h9 => ⟨fun ha => ?_, fun ha => ?_⟩,
    fun b s hr hc hs => ⟨byte_ignored hr hc hs, byte_syncs hr hc hs, byte_class hr hc hs, byte_field hr hc hs,
      byte_lostSync hr hc hs, byte_skipped hr hc hs, byte_skipEscape hr hc hs⟩,
    fun s hr hc hs => ⟨fun h => exec_next_of hr (lineQuiet_of_uncounted hc hs h),
      fun ha h => exec_next_of hr (lineQuiet_of_counted hc hs ha h)⟩,
    fun b levels x s hr hc hs h0 => ⟨fun hx hb hkept => ?_, fun f fs hx hb hlost hq => ?_,
      fun hx hheld => ?_, exec_next_of hr (lineQuiet_of_sending hs)⟩⟩
  · intro i hi
    rw [getLsbD_lineLevels, if_neg (by omega), if_pos (by omega), Nat.add_sub_cancel]
  · have ha' : s.afterByte.line.assembler = .assembling := ha
    rw [exec_framingError hr hc hs h0 h9, framingError, ha']
    exact congrArg _ (breakFrame_afterByte _ s)
  · rw [exec_framingError hr hc hs h0 h9, framingError]
    split
    · next h => exact absurd h ha
    · rfl
    · rfl
    · rfl
  · have hread := byteReceived_of_none hc h0
    rw [senderReads_of_kept hs hx hb hkept] at hread
    obtain ⟨htape, hgeneral, -⟩ := hread.queues
    refine ⟨_, exec_levels hr, hread.sending.trans ?_, htape, hgeneral⟩
    show s.line.sending.map _ = _
    rw [hs]
    rfl
  · have hread := byteReceived_of_none hc h0
    rw [senderReads_of_lost hs hx hb hlost] at hread
    obtain ⟨-, -, hlosses, habandoned⟩ := hread.queues
    obtain ⟨hoff, hcount, hfew, hlast⟩ := loseAttempt_head (s := s.afterByte) (q := x.queue) hq
    rw [← hread.queue x.queue, ← habandoned] at hfew hlast
    exact ⟨_, exec_levels hr, hread.sending.trans hoff, hlosses.trans hcount, hfew, hlast⟩
  · exact ⟨_, exec_levels hr, (byteReceived_of_none hc h0).sending.trans (senderReads_of_hold hs hx hheld)⟩

end Sys2Proof.Machine
end

section
/-!
PROOFS. The law of the tape hold (R99, R102): the indices rise and the entry columns lie 6 or more apart.
-/
namespace Sys2Proof.Machine

/-! ### The insertion of a character (R102) -/

section Insert
variable {c : TapeChar} {hold : List TapeChar}

/-- A character that is not behind another, and is not at its place, is before it. -/
theorem sdiff_neg_of_ahead {a b : Col} (h : 0 ≤ sdiff a b) (hne : a ≠ b) : sdiff b a < 0 := by
  have hsub : (a - b).toNat ≠ 0 := fun h0 => hne (by bv_omega)
  have hrev : (b - a).toNat = 16777216 - (a - b).toNat := by bv_omega
  have hlt := (a - b).isLt
  rw [sdiff_eq] at h ⊢
  split_ifs at * <;> omega

theorem mem_insertChar (b : TapeChar) : b ∈ insertChar c hold ↔ b = c ∨ b ∈ hold := by
  have hmem : b ∈ hold ↔ b ∈ holdBelow c.index hold ∨ b ∈ holdAbove c.index hold := by
    rw [← List.mem_append, holdBelow_append_holdAbove]
  rw [insertChar, List.mem_append, List.mem_cons, hmem]
  tauto

/-- R99, R102: a character that is not dropped fits its place. -/
theorem insertChar_lawful (h : holdLawful hold) (hd : dropsChar c hold = false) :
    holdLawful (insertChar c hold) := by
  have hkeep := fun hdrop => Bool.eq_false_iff.1 hd (dropsChar_iff.2 hdrop)
  have hsplit := h
  rw [holdLawful, ← holdBelow_append_holdAbove c.index hold, List.isChain_append] at hsplit
  obtain ⟨hbelow, habove, -⟩ := hsplit
  refine hbelow.append (habove.cons fun q hq => ?_) fun p hp d hdc => ?_
  · have hmem : q ∈ hold := by
      rw [← holdBelow_append_holdAbove c.index hold]
      exact List.mem_append_right _ (List.mem_of_mem_head? hq)
    refine ⟨sdiff_neg_of_ahead (index_of_head_holdAbove hq) fun he => hkeep (.inl ⟨q, hmem, he⟩), ?_⟩
    by_contra hlt
    exact hkeep (.inr (.inr (.inl ⟨q, hq, not_le.1 hlt⟩)))
  · obtain rfl : c = d := by simpa using hdc
    refine ⟨index_of_mem_holdBelow (List.mem_of_mem_getLast? hp), ?_⟩
    by_contra hlt
    exact hkeep (.inr (.inl ⟨p, hp, not_le.1 hlt⟩))

end Insert

/-! ### A hold within a window -/

section Window
variable {index entry : Col} {a b c : TapeChar} {hold : List TapeChar}

/-- Within 2^22 of one column the signed difference of two is that of their distances from it. -/
theorem sdiff_of_near {x y base : Col} (hx : (x - base).toNat < 4194304) (hy : (y - base).toNat < 4194304) :
    sdiff x y = ((x - base).toNat : Int) - (y - base).toNat := by
  have hcases : (x - y).toNat = if (y - base).toNat ≤ (x - base).toNat
      then (x - base).toNat - (y - base).toNat
      else 16777216 + (x - base).toNat - (y - base).toNat := by
    split_ifs <;> bv_omega
  rw [sdiff_eq, hcases]
  split_ifs <;> omega

/-- R99: the order of two characters in a window. -/
def windowOrder (index entry : Col) (a b : TapeChar) : Prop :=
  (a.index - index).toNat < (b.index - index).toNat ∧
    (a.entry - entry).toNat + 6 ≤ (b.entry - entry).toNat

theorem windowOrder_trans (hab : windowOrder index entry a b) (hbc : windowOrder index entry b c) :
    windowOrder index entry a c := by
  obtain ⟨h1, h2⟩ := hab
  obtain ⟨h3, h4⟩ := hbc
  exact ⟨h1.trans h3, by omega⟩

theorem neighbours_iff (ha : (a.index - index).toNat < 4194304 ∧ (a.entry - entry).toNat < 4194304)
    (hb : (b.index - index).toNat < 4194304 ∧ (b.entry - entry).toNat < 4194304) :
    neighbours a b ↔ windowOrder index entry a b := by
  rw [neighbours, windowOrder, sdiff_of_near ha.1 hb.1, sdiff_of_near hb.2 ha.2]
  omega

/-- R99: within a window the law between neighbours is the law between any two characters. -/
theorem holdLawful_iff (hw : holdWithin index entry hold) :
    holdLawful hold ↔ hold.Pairwise (windowOrder index entry) := by
  have htrans : Trans (windowOrder index entry) (windowOrder index entry) (windowOrder index entry) :=
    ⟨windowOrder_trans⟩
  rw [← List.isChain_iff_pairwise]
  exact List.IsChain.iff_of_mem_imp fun a b ha hb => neighbours_iff (hw a ha) (hw b hb)

end Window

/-! ### The law of a state's hold -/

/-- R99: the hold of a state is lawful and within its size. -/
def State.holdFits (s : State) : Prop := holdLawful s.crawl.hold ∧ s.crawl.hold.length ≤ 48

/-- R99: the hold of a state fits, within a window. -/
def State.holdIn (s : State) (index entry : Col) : Prop :=
  s.holdFits ∧ holdWithin index entry s.crawl.hold

section HoldIn
variable {s t : State} {index entry : Col}

theorem holdFits_of_hold (h : t.crawl.hold = s.crawl.hold) (hs : s.holdFits) : t.holdFits := by
  unfold State.holdFits
  rwa [h]

theorem holdFits_of_empty (h : t.crawl.hold = []) : t.holdFits := by
  unfold State.holdFits
  rw [h]
  exact ⟨.nil, Nat.zero_le _⟩

/-- R106, R108: a change that only removes characters and marks them sent. -/
theorem State.holdIn.of_marked {f : TapeChar → TapeChar} {p : TapeChar → Bool} (h : s.holdIn index entry)
    (hf : ∀ c, (f c).index = c.index ∧ (f c).entry = c.entry)
    (ht : t.crawl.hold = (s.crawl.hold.map f).filter p) : t.holdIn index entry := by
  obtain ⟨⟨hlaw, hlen⟩, hw⟩ := h
  have hwithin : holdWithin index entry t.crawl.hold := fun c hc => by
    rw [ht] at hc
    obtain ⟨b, hb, rfl⟩ := List.mem_map.1 (List.mem_of_mem_filter hc)
    rw [(hf b).1, (hf b).2]
    exact hw b hb
  refine ⟨⟨(holdLawful_iff hwithin).2 ?_, ?_⟩, hwithin⟩
  · rw [ht]
    refine List.Pairwise.filter p (List.pairwise_map.2 (((holdLawful_iff hw).1 hlaw).imp fun hab => ?_))
    rw [windowOrder, (hf _).1, (hf _).1, (hf _).2, (hf _).2]
    exact hab
  · rw [ht]
    exact (List.length_filter_le _ _).trans (by rwa [List.length_map])

theorem State.holdIn.of_filter {p : TapeChar → Bool} (h : s.holdIn index entry)
    (ht : t.crawl.hold = s.crawl.hold.filter p) : t.holdIn index entry :=
  h.of_marked (f := id) (fun _ => ⟨rfl, rfl⟩) (by rw [ht, List.map_id])

theorem State.holdIn.of_hold (h : s.holdIn index entry) (ht : t.crawl.hold = s.crawl.hold) :
    t.holdIn index entry := by
  unfold State.holdIn State.holdFits
  rwa [ht]

theorem State.holdIn.handsOn (h : s.holdIn index entry) (ht : Machine.handsOn s t) : t.holdIn index entry := by
  obtain ⟨-, -, batch, queue, -, -, -, rfl⟩ := ht
  refine h.of_marked (f := markedSent batch) (p := stays s) (fun c => ?_) rfl
  rcases markedSent_cases batch c with e | e <;> rw [e] <;> exact ⟨rfl, rfl⟩

theorem State.holdIn.handsOver (h : s.holdIn index entry) (ht : Relation.ReflTransGen Machine.handsOn s t) :
    t.holdIn index entry := by
  induction ht with
  | refl => exact h
  | tail _ hlast ih => exact ih.handsOn hlast

theorem State.holdIn.judgeHold (h : s.holdIn index entry) : (judgeHold s).holdIn index entry :=
  State.holdIn.handsOver (h.of_filter (t := { s with
    crawl := { s.crawl with hold := s.crawl.hold.filter (stays s) } }) rfl) (judgeHold_judged s).1

/-- R102: a character of the window that is placed, or is not. -/
theorem State.holdIn.placeChar (h : s.holdIn index entry) {c : TapeChar}
    (hc : (c.index - index).toNat < 4194304 ∧ (c.entry - entry).toNat < 4194304) :
    (placeChar c s).holdIn index entry := by
  obtain ⟨⟨hlaw, hlen⟩, hw⟩ := h
  have hplaced : ∀ t : State, dropsChar c s.crawl.hold = false → t.crawl.hold = insertChar c s.crawl.hold →
      t.holdIn index entry := fun t hd ht => by
    unfold State.holdIn State.holdFits
    rw [ht]
    refine ⟨⟨insertChar_lawful hlaw hd, ?_⟩, fun b hb => ?_⟩
    · rw [insertChar_length]
      exact length_lt_of_dropsChar hd
    · rcases (mem_insertChar b).1 hb with rfl | hb
      · exact hc
      · exact hw b hb
  rcases placeChar_cases c s with ⟨-, e⟩ | ⟨-, -, -, -, e⟩ | ⟨hd, -, -, -, e⟩ | ⟨hd, -, e⟩ <;> rw [e]
  · exact ⟨⟨hlaw, hlen⟩, hw⟩
  · exact ⟨⟨hlaw, hlen⟩, hw⟩
  · exact hplaced _ hd rfl
  · exact hplaced _ hd rfl

theorem State.holdIn.placeChars {cs : List HandoffChar} {i : Col} (h : s.holdIn index entry)
    (hcs : ∀ k c, cs[k]? = some c → (i + BitVec.ofNat 24 k - index).toNat < 4194304 ∧
      (c.entry - entry).toNat < 4194304) : (placeChars i cs s).holdIn index entry := by
  induction cs generalizing i s with
  | nil => exact h
  | cons c cs ih =>
    refine ih (h.placeChar ?_) fun k d hd => ?_
    · have := hcs 0 c rfl
      rwa [show i + BitVec.ofNat 24 0 = i by simp] at this
    · have := hcs (k + 1) d hd
      rwa [Nat.add_comm, BitVec.ofNat_add, ← BitVec.add_assoc] at this

theorem State.holdIn.takeOffset (h : s.holdIn index entry) (o : BitVec 16) :
    (takeOffset o s).holdIn index entry := by
  unfold Machine.takeOffset
  split
  · split_ifs
    · exact State.holdIn.judgeHold (h.of_hold rfl)
    · exact h
  · split_ifs
    · exact h
    · exact h

/-- R100 to R107: a Handoff whose characters lie in the window. -/
theorem State.holdIn.takeHandoff {m : HandoffMsg} (h : s.holdIn index entry)
    (hcs : ∀ k c, m.chars[k]? = some c → (m.first + BitVec.ofNat 24 k - index).toNat < 4194304 ∧
      (c.entry - entry).toNat < 4194304) : (takeHandoff m s).holdIn index entry := by
  have hplaced := (h.takeOffset m.offset).placeChars hcs
  unfold Machine.takeHandoff forwardIfMoving
  split_ifs
  · exact hplaced.handsOver (forward_handsOn _ _)
  · exact hplaced

theorem requestPace_hold (s : State) : (requestPace s).crawl.hold = s.crawl.hold := by
  rcases requestPace_cases s with e | ⟨-, e⟩ | ⟨r, -, -, -, -, e⟩ <;> rw [e] <;> rfl

theorem State.holdIn.crawlStep (h : s.holdIn index entry) : (crawlStep s).holdIn index entry := by
  cases hm : s.moving
  · rwa [crawlStep_of_still hm]
  · rw [crawlStep_of_moving hm]
    have hjudged : (Machine.judgeHold (s.onCrawl (Crawl.stepped s.isHead))).holdIn index entry :=
      State.holdIn.judgeHold (h.of_hold (stepped_hold _ _))
    refine hjudged.of_hold ?_
    obtain ⟨q, p, e⟩ := paceAtMultiple_eq (Machine.judgeHold (s.onCrawl (Crawl.stepped s.isHead)))
    rw [e]

theorem State.holdIn.correctSteps (h : s.holdIn index entry) (head : Col) :
    (correctSteps head s).holdIn index entry := by
  unfold Machine.correctSteps
  split_ifs
  · exact h
  · exact h
  · exact State.holdIn.judgeHold (h.of_hold rfl)

theorem State.holdIn.crawlPace (h : s.holdIn index entry) (m : PaceMsg) : (crawlPace m s).holdIn index entry := by
  unfold Machine.crawlPace
  split_ifs
  · unfold takePace
    split
    · exact h
    · split_ifs
      · exact State.holdIn.judgeHold (h.of_hold rfl)
      · exact h
    · refine State.holdIn.correctSteps ?_ _
      exact h.of_hold rfl
    · refine State.holdIn.correctSteps ?_ _
      exact h.of_hold rfl
  · exact h

end HoldIn

/-! ### Composition at a head (R84, R85) -/

section Compose
variable {s : State} {set : List (Glyph × Attr)}

/-- R84, R85: two characters composed one after the other. -/
theorem neighbours_of_composed {a b : TapeChar} {i e : Col} {k : Nat}
    (ha : a.index = i + BitVec.ofNat 24 k ∧ a.entry = e + BitVec.ofNat 24 (6 * k))
    (hb : b.index = i + BitVec.ofNat 24 (k + 1) ∧ b.entry = e + BitVec.ofNat 24 (6 * (k + 1))) :
    neighbours a b := by
  have hindex : a.index - b.index = 16777215 := by
    rw [ha.1, hb.1, BitVec.ofNat_add]
    generalize BitVec.ofNat 24 k = x
    bv_omega
  have hentry : b.entry - a.entry = 6 := by
    rw [ha.2, hb.2, Nat.mul_succ, BitVec.ofNat_add]
    generalize BitVec.ofNat 24 (6 * k) = x
    bv_omega
  rw [neighbours, sdiff, sdiff, hindex, hentry]
  decide

/-- R84, R85, R99: at a head whose next character follows its hold, a set with room keeps the law. -/
theorem composeSet_holdFits (h : s.holdFits) (hfollow : composerFollows s) (hnear : nextEntryNear s)
    (hlen : s.crawl.hold.length + set.length ≤ 48) : (composeSet set s).holdFits := by
  obtain ⟨hlaw, -⟩ := h
  obtain ⟨new, e, heq, hset, -, -, -, -, hindex⟩ := composeSet_eq set s
  obtain ⟨new', hhold, hentries, -⟩ := composeSet_entries set s (by omega) fun n hn => by
    have := hnear n hn
    omega
  have hold : (composeSet set s).crawl.hold = s.crawl.hold ++ new := by rw [heq]; rfl
  obtain rfl : new = new' := List.append_cancel_left (hold.symm.trans hhold)
  have hnewlen : new.length = set.length := by rw [← hset, List.length_map]
  unfold State.holdFits
  rw [hhold]
  refine ⟨hlaw.append (List.isChain_iff_getElem.2 fun i hi => ?_) fun p hp c hc => ?_, ?_⟩
  · have hi' : new[i]? = some new[i] := List.getElem?_eq_getElem (by omega)
    have hj' : new[i + 1]? = some new[i + 1] := List.getElem?_eq_getElem hi
    exact neighbours_of_composed ⟨hindex i _ hi', hentries i _ hi'⟩ ⟨hindex _ _ hj', hentries _ _ hj'⟩
  · obtain ⟨hi, he⟩ := hfollow p hp
    have hc0 : new[0]? = some c := by rwa [← List.head?_eq_getElem?]
    refine ⟨?_, ?_⟩
    · rw [hindex 0 c hc0]
      simpa using hi
    · rw [hentries 0 c hc0]
      simpa using he
  · rw [List.length_append, hnewlen]
    exact hlen

/-- What a take or a decay composes in, where only the level and its pace have changed. -/
theorem composeSet_holdFits_of_same {u : State} (h : s.holdFits) (hfollow : composerFollows s)
    (hnear : nextEntryNear s) (hlen : s.crawl.hold.length + set.length ≤ 48)
    (hhold : u.crawl.hold = s.crawl.hold) (hsteps : u.crawl.stepCount = s.crawl.stepCount)
    (hindex : u.composer.nextIndex = s.composer.nextIndex)
    (hentry : u.composer.nextEntry = s.composer.nextEntry) : (composeSet set u).holdFits := by
  refine composeSet_holdFits (holdFits_of_hold hhold h) ?_ ?_ (by rwa [hhold])
  · unfold composerFollows at *
    rwa [hhold, hsteps, hindex, hentry]
  · unfold nextEntryNear at *
    rwa [hsteps, hentry]

variable (h : s.holdFits) (hhead : s.isHead = true → composerFollows s ∧ nextEntryNear s)
include h hhead

theorem printTake_holdFits : (printTake s).holdFits := by
  unfold printTake
  split
  · split_ifs with hroom
    · rw [Bool.and_eq_true, roomFor_iff] at hroom
      obtain ⟨hh, -, hlen⟩ := hroom
      obtain ⟨hfollow, hnear⟩ := hhead hh
      refine holdFits_of_hold (s := composeSet _ (stepLevel _ s)) rfl ?_
      obtain ⟨pace, staged, general, pending, e⟩ := stepLevel_eq _ s
      exact composeSet_holdFits_of_same h hfollow hnear hlen (by rw [e]) (by rw [e]) (by rw [e]) (by rw [e])
    · exact h
  · exact h

theorem takeText_holdFits (text : List (Glyph × Attr)) (rest : List TapeItem) :
    (takeText text rest s).holdFits := by
  unfold takeText
  split_ifs with hroom
  · rw [Bool.and_eq_true, roomFor_iff] at hroom
    obtain ⟨hh, -, hlen⟩ := hroom
    obtain ⟨hfollow, hnear⟩ := hhead hh
    exact holdFits_of_hold (s := composeSet text s) rfl (composeSet_holdFits h hfollow hnear hlen)
  · exact h

theorem idleDecay_holdFits : (idleDecay s).holdFits := by
  unfold idleDecay
  split_ifs with hroom
  · rw [Bool.and_eq_true, roomFor_iff, decayDue_iff] at hroom
    obtain ⟨⟨hh, -, -⟩, -, hlen⟩ := hroom
    obtain ⟨hfollow, hnear⟩ := hhead hh
    refine holdFits_of_hold (s := composeSet _ (enterLevel _ s)) rfl ?_
    obtain ⟨general, pending, e⟩ := enterLevel_eq (s.composer.level - 1) s
    exact composeSet_holdFits_of_same h hfollow hnear hlen (by rw [e]) (by rw [e]) (by rw [e]) (by rw [e])
  · exact h

end Compose

/-! ### Every step (R99) -/

section Step
variable {s : State} {index entry : Col}

theorem holdFits_of_tapeSame {t : State} (h : tapeSame s t) (hs : s.holdFits) : t.holdFits :=
  holdFits_of_hold (by rw [h.2]) hs

theorem composerOnly.holdFits {t : State} (h : composerOnly s t) (hs : s.holdFits) : t.holdFits :=
  holdFits_of_hold (by rw [h]) hs

theorem onCrawl_holdFits {f : Crawl → Crawl}
    (hf : (f s.crawl).hold = s.crawl.hold ∨ (f s.crawl).hold = []) (hs : s.holdFits) : (s.onCrawl f).holdFits :=
  hf.elim (fun e => holdFits_of_hold e hs) fun e => holdFits_of_empty e

theorem requestAtZero_holdFits (hs : s.holdFits) : (requestAtZero s).holdFits := by
  unfold requestAtZero
  split_ifs
  · exact holdFits_of_hold (requestPace_hold s) hs
  · exact hs

theorem idleTick_hold (s : State) : (idleTick s).crawl.hold = s.crawl.hold := by
  unfold idleTick
  split_ifs <;> rfl

/-- R99: what a command in service leaves of the hold. -/
theorem effectOf_holdFits (c : Instr) (h : s.holdIn index entry)
    (hhandoff : ∀ f m, c = .handoff f → readHandoff f = some m → ∀ k d, m.chars[k]? = some d →
      (m.first + BitVec.ofNat 24 k - index).toNat < 4194304 ∧ (d.entry - entry).toNat < 4194304)
    (hhead : s.isHead = true → composerFollows s ∧ nextEntryNear s) : (effectOf c s).holdFits := by
  have hfits := h.1
  cases hc : reachesTape c with
  | false => exact holdFits_of_tapeSame (effectOf_tapeSame s hc) hfits
  | true =>
    cases c with
    | floorTick =>
      refine holdFits_of_tapeSame (floorTick_tapeSame s) (onCrawl_holdFits (silenceTick_hold _) ?_)
      exact holdFits_of_hold (idleTick_hold (tickBoard s)) hfits
    | crawlStep => exact h.crawlStep.1
    | pendingPaceQueued =>
      rw [effectOf]
      rcases meetPendingPace_cases s with e | ⟨r, -, -, -, e⟩ <;> rw [e] <;> exact hfits
    | print f =>
      refine handled_map_keeps hfits hfits hfits fun m _ _ => (composerPrint_composerOnly m).holdFits ?_
      have hdesk := (tablePrint_desk s.dispatched m).trans (firePrint_desk _ m)
      exact holdFits_of_tapeSame hdesk.tapeSame hfits
    | status f =>
      refine handled_map_keeps hfits hfits hfits fun m _ _ => (composerStatus_composerOnly m).holdFits ?_
      exact holdFits_of_tapeSame (setRecordState_desk s.dispatched _ _).tapeSame hfits
    | cancel f =>
      refine handled_map_keeps hfits hfits hfits fun m _ _ => (composerCancel_composerOnly m).holdFits ?_
      exact holdFits_of_tapeSame (tableCancel_desk s.dispatched m).tapeSame hfits
    | dayStart f =>
      refine handled_map_keeps hfits hfits hfits fun _ _ _ => ?_
      rw [dayStart_eq]
      refine requestAtZero_holdFits (holdFits_of_empty ?_)
      rfl
    | handoff f =>
      refine handled_keeps hfits hfits hfits fun g hg _ _ => ?_
      obtain ⟨m, hm, -, rfl⟩ := handoffEffect_some hg
      exact (State.holdIn.takeHandoff (s := s.dispatched) h (hhandoff f m rfl hm)).1
    | pace f =>
      exact handled_map_keeps hfits hfits hfits fun m _ _ => (State.holdIn.crawlPace (s := s.dispatched) h m).1
    | printTake => exact printTake_holdFits hfits hhead
    | cancelTake =>
      rw [effectOf, cancelTake]
      split
      · exact takeText_holdFits hfits hhead _ _
      · exact hfits
    | statusTake =>
      rw [effectOf, statusTake]
      split
      · exact takeText_holdFits hfits hhead _ _
      · exact hfits
    | idleTimerExpiry =>
      simp only [effectOf]
      split_ifs <;> exact hfits
    | idleDecay => exact idleDecay_holdFits hfits hhead
    | silenceCoasting => exact onCrawl_holdFits (.inl (coastingExpiry_hold _)) hfits
    | silenceWaiting => exact onCrawl_holdFits (waitingExpiry_hold _) hfits
    | _ => cases hc

theorem timerClock_holdFits (h : s.holdIn index entry) : (timerClock s).holdFits := by
  unfold timerClock
  split_ifs
  · exact h.crawlStep.1
  · exact h.1
  · exact h.1

theorem powerOnReset_holdFits (pins : StrapPins) (s : State) : (powerOnReset pins s).holdFits := by
  refine requestAtZero_holdFits (s := s.powerOn (readStraps pins)) (holdFits_of_empty ?_)
  show (Crawl.powerOn (readStraps pins)).hold = []
  unfold Crawl.powerOn
  split
  · rfl
  · split_ifs <;> rfl

end Step

/-- Settles O49: the insertion, and the law of the hold within a window. -/
theorem placementKeepsHoldLaw : Obligations.PlacementKeepsHoldLaw := by
  refine ⟨fun c hold hlaw hlen hd => ⟨insertChar_lawful hlaw hd, ?_, fun b => mem_insertChar b⟩,
    fun index entry s t hlaw hlen hwithin hhandoff hhead hst => ?_⟩
  · rw [insertChar_length]
    exact length_lt_of_dropsChar hd
  · have h : s.holdIn index entry := ⟨⟨hlaw, hlen⟩, hwithin⟩
    show t.holdFits
    cases hq : s.pending with
    | nil =>
      rw [step_nil hq] at hst
      rcases inService_next hst with ⟨-, rfl⟩ | ⟨-, rfl⟩
      · exact h.1
      · exact timerClock_holdFits h
    | cons c rest =>
      rw [step_cons hq] at hst
      rcases exec_cases c (s.withPending rest) with ⟨-, he⟩ | ⟨pins, -, he⟩ | ⟨-, he⟩ | ⟨-, he⟩ <;>
        rw [he, Host.Outcome.next.injEq] at hst <;> rw [← hst]
      · exact holdFits_of_hold (s := s) rfl h.1
      · exact powerOnReset_holdFits pins _
      · exact h.1
      · refine effectOf_holdFits (s := s.withPending rest) c (h.of_hold rfl) (fun f m hc hm => ?_) hhead
        exact hhandoff f rest m (by rw [hq, hc]) hm

end Sys2Proof.Machine
end
